-- ==== Sys2Proof/Word.lean ====
section
/-! DEFINITION. The word types of VTC, and the level of a three-state pin. -/

namespace Sys2Proof

/-- One byte: a pixel, which VTC never interprets (R21). -/
abbrev Byte := BitVec 8

/-- A 16-bit pixel count, line count, counter or buffer index (FIELD_BITS, PERIOD_BITS, R9). -/
abbrev Half := BitVec 16

/-- A 32-bit bus word or register (R52). -/
abbrev Word := BitVec 32

/-- The level of a three-state output pin (R21). -/
inductive Level where
  /-- The pin is not driven. -/
  | z
  /-- The pin is driven to 0. -/
  | low
  /-- The pin is driven to 1. -/
  | high
  deriving DecidableEq, Repr, Inhabited

/-- The driven level that carries one bit. -/
def Level.ofBool (b : Bool) : Level := if b then .high else .low

end Sys2Proof
end

