-- ==== Sys2Proof/Config.lean ====
section
/-! DEFINITION. What an implementation of VTC fixes (R9), and the values the spec leaves open. -/

namespace Sys2Proof

/-- `PERIOD_MAX`: the largest legal `cpp * h_total` (R9, V3 of R151). -/
abbrev Config.periodMax : Nat := 65535

/-- `N_BANDS_MAX`: the largest band list (R9). -/
abbrev Config.nBandsMax : Nat := 16

/-- `N_SLOTS`: the number of rasterizer slots (R9). -/
abbrev Config.nSlots : Nat := 16

/-- `PIXEL_MAP`: which bits of a pixel byte are red, green and blue, one mask for each (R9, R21, U20). A bit may be
in no mask, since the spec leaves the assignment to the board. -/
structure PixelMap where
  red : Byte
  green : Byte
  blue : Byte
  deriving DecidableEq, Repr

/-- The OPEN parameters of R9, and the base address that R81 leaves to the platform. They are no state of VTC (R20):
`State` carries one value of this type, which no step changes, so that a statement about every state is a statement
about every choice of the parameters (log entry 2). -/
structure Params where
  /-- `F_CLK`: the frequency of `clk`, in hertz; no rule reads it. -/
  fClk : Nat
  /-- `BUF_BYTES`: the capacity of each scanline buffer, in bytes. -/
  bufBytes : Nat
  /-- `BUF_ALIGN`: the alignment of each buffer, in bytes; no rule reads it (R86). -/
  bufAlign : Nat
  /-- `OVR_MIN`: the least legal effective shift divisor. -/
  ovrMin : Nat
  /-- `OVR_MAX`: the greatest legal effective shift divisor. -/
  ovrMax : Nat
  /-- `GATE_HOLD_CLKS`: the ticks the host holds the mutex in a gate operation. -/
  gateHold : Nat
  /-- `HAS_BANDS`: the band scheduler is present. -/
  hasBands : Bool
  /-- `PIXEL_MAP`; no rule reads it. -/
  pixelMap : PixelMap
  /-- The base address of the register space on the platform's bus; every offset is relative to it, and no rule reads
  it (R81). -/
  baseAddress : Nat
  deriving DecidableEq, Repr

/-- The defaults that R9 gives the open parameters. It gives none for `F_CLK`, for `PIXEL_MAP` and for the base
address; the values here are the model's, and nothing reads them (DESIGN CHOICE, log entry 2). -/
def Params.default : Params :=
  { fClk := 160000000, bufBytes := 800, bufAlign := 4, ovrMin := 1, ovrMax := 255, gateHold := 1, hasBands := true
    pixelMap := { red := 0, green := 0, blue := 0 }, baseAddress := 0 }

/-- The constraints on the open parameters (section 2 of `93_implementation_defined.md`, R81). There is none on
`F_CLK`, `BUF_ALIGN`, `PIXEL_MAP` and the base address. -/
def Params.wf (p : Params) : Bool :=
  decide (4 ≤ p.bufBytes) && decide (p.bufBytes ≤ 4096) && decide (p.bufBytes % 4 = 0)
    && decide (1 ≤ p.ovrMin) && decide (p.ovrMin ≤ p.ovrMax) && decide (p.ovrMax ≤ 255)
    && decide (1 ≤ p.gateHold)

/-- FREE VALUE (U1, U2; log entry 3). The byte found at a buffer address that nothing has written since the
last reset. The first argument counts the resets: "a `Reset` need not keep earlier contents either". -/
opaque Config.unwrittenByte : Nat → Nat → Byte

/-- FREE VALUE (U3; log entry 4). The level of `hsync` while faulted, at the step of the given number. -/
opaque Config.faultedHsync : Nat → Level

/-- FREE VALUE (U3; log entry 4). The level of `vsync` while faulted, at the step of the given number. -/
opaque Config.faultedVsync : Nat → Level

/-- FREE VALUE (log entry 6). What `SLOT_FN[k]` reads as for `k >= N_SLOTS`, where there is no register. -/
opaque Config.absentSlotFn : Nat → Word

/-- FREE VALUE (log entry 6). Whether `tag[k]` reads as Loaded for `k >= N_SLOTS`, where there is no tag. -/
opaque Config.absentTagLoaded : Nat → Bool

/-- FREE VALUE (log entry 6). What `BAND_RANGE[i]` reads as for `i >= N_BANDS_MAX`. -/
opaque Config.absentBandRange : Nat → Word

/-- FREE VALUE (log entry 6). What `BAND_SLOT[i]` reads as for `i >= N_BANDS_MAX`. -/
opaque Config.absentBandSlot : Nat → Word

end Sys2Proof
end

