-- ==== Sys2Proof/Syntax.lean ====
section
/-! DEFINITION. The operations of VTC: one constructor of `Instr` per row of the opcode table, and the
steps the outside world can ask for (R8). -/

namespace Sys2Proof

/-- The width of a bus access, 1, 2 or 4 bytes (R89). -/
inductive Width where
  | byte
  | half
  | word
  deriving DecidableEq, Repr

/-- The width of an access in bytes. -/
def Width.bytes : Width → Nat
  | .byte => 1
  | .half => 2
  | .word => 4

/-- The operations of VTC (R120): eleven commands, five sequencer events, two bus operations. -/
inductive Instr where
  /-- `NEW` (R274). -/
  | new
  /-- `CFG_TIMING` (R151 to R153). -/
  | cfgTiming
  /-- `STOP_SYNC` (R156). -/
  | stopSync
  /-- `RAST_OPEN` (R252). -/
  | rastOpen
  /-- `BANDS_OPEN n` (R291); `n` is the operand field `arg[7:0]`. -/
  | bandsOpen (n : BitVec 8)
  /-- `RAST_CLOSE` (R253). -/
  | rastClose
  /-- `SYNC_VBLANK` (R275). -/
  | syncVblank
  /-- `VIDEO_ON` (R236). -/
  | videoOn
  /-- `VIDEO_OFF` (R237). -/
  | videoOff
  /-- `RAST_DONE` (R193). -/
  | rastDone
  /-- `RAST_FAIL` (R194). -/
  | rastFail
  /-- `TICK` (R157). -/
  | tick
  /-- `SAV` (R182). -/
  | sav
  /-- `EAV` (R183 to R185). -/
  | eav
  /-- `RAST(r, k)` (R186): visible line `r`, slot index `k`. -/
  | rast (r : BitVec 16) (k : BitVec 8)
  /-- `DMABEAT` (R187). -/
  | dmabeat
  /-- `RD offset, n` (R89, R90). -/
  | rd (offset : BitVec 13) (width : Width)
  /-- `WR offset, n, value` (R89, R91); the value is `data[8n-1:0]`. -/
  | wr (offset : BitVec 13) (width : Width) (data : BitVec 32)
  deriving DecidableEq, Repr

/-- One step of the whole machine as R8 lists them. A bus step does not say which agent issued it: VTC
does not know (R22, R315). -/
inductive Input where
  /-- One period of `clk`. -/
  | tick
  /-- `BusWrite(offset, width, value)` by the host or the rasterizer. -/
  | write (offset : BitVec 13) (width : Width) (data : BitVec 32)
  /-- `BusRead(offset, width)` by the host or the rasterizer. -/
  | read (offset : BitVec 13) (width : Width)
  /-- The reset input. -/
  | reset
  deriving DecidableEq, Repr

end Sys2Proof
end

