-- ==== Sys2Proof/WellFormed.lean ====
section
/-! DEFINITION. Which terms of `Instr` are operations of VTC. -/

namespace Sys2Proof

/-- The match column of R122 for the ten commands without an operand; their mask is `0xFFFF_FFFF`. -/
def plainCommandWords : List Word :=
  [0x01000000#32, 0x02000000#32, 0x03000000#32, 0x04000000#32, 0x06000000#32,
   0x07000000#32, 0x08000000#32, 0x09000000#32, 0x10000000#32, 0x11000000#32]

/-- A defined command word by the match and mask columns of R122; `BANDS_OPEN` has mask `0xFFFF_FF00`
and match `0x0500_0000`. -/
def isCommandWord (w : Word) : Bool :=
  plainCommandWords.contains w || (w &&& 0xFFFFFF00#32) == 0x05000000#32

/-- The value of an `n`-byte access has `8n` bits (R89). -/
def Width.fits (n : Width) (v : Word) : Bool := decide (v.toNat < 2 ^ (8 * n.bytes))

/-- The checks on a term: a dispatch names a slot that exists (B6 of R292); the value of a bus write has
no bit above its width (R89); a word write to `CMD` whose word is a defined command is written as that
command and not as a plain `WR` (R129, R131). -/
def Instr.wellFormed : Instr → Bool
  | .rast _ k => decide (k.toNat < Config.nSlots)
  | .wr offset width data =>
      width.fits data && !(offset == 0#13 && width == .word && isCommandWord data)
  | .new => true
  | .cfgTiming => true
  | .stopSync => true
  | .rastOpen => true
  | .bandsOpen _ => true
  | .rastClose => true
  | .syncVblank => true
  | .videoOn => true
  | .videoOff => true
  | .rastDone => true
  | .rastFail => true
  | .tick => true
  | .sav => true
  | .eav => true
  | .dmabeat => true
  | .rd _ _ => true

end Sys2Proof
end

