-- ==== Sys2Proof/Decode.lean ====
section
/-! DEFINITION. Decoding of command words (R121 to R124) and of the steps of R8, and the encoder. -/

namespace Sys2Proof

/-- Why a command word is illegal (R124). -/
inductive DecodeError where
  /-- `op` is not in R122. -/
  | reservedOpcode (op : BitVec 8)
  /-- A must-be-zero bit of `arg` is 1. -/
  | reservedArgument (op : BitVec 8) (arg : BitVec 24)
  deriving DecidableEq, Repr

/-- `op = w[31:24]` (R121). -/
def opField (w : Word) : BitVec 8 := w.extractLsb' 24 8

/-- `arg = w[23:0]` (R121). -/
def argField (w : Word) : BitVec 24 := w.extractLsb' 0 24

/-- The opcode map of R122, but for `BANDS_OPEN`, which has an operand. -/
def opcodeMap : List (BitVec 8 × Instr) :=
  [(0x01#8, .new), (0x02#8, .cfgTiming), (0x03#8, .stopSync), (0x04#8, .rastOpen),
   (0x06#8, .rastClose), (0x07#8, .syncVblank), (0x08#8, .videoOn), (0x09#8, .videoOff),
   (0x10#8, .rastDone), (0x11#8, .rastFail)]

/-- Decoding of a command word, steps 1 and 2 of R131 (the clause of R124 on `HAS_BANDS` is in the meaning of
`BANDS_OPEN`: log entry 12). -/
def decodeCmd (w : Word) : Except DecodeError Instr :=
  let op := opField w
  let arg := argField w
  if op = 0x05#8 then
    if arg.extractLsb' 8 16 = 0#16 then .ok (.bandsOpen (arg.extractLsb' 0 8))
    else .error (.reservedArgument op arg)
  else
    match opcodeMap.lookup op with
    | some i => if arg = 0#24 then .ok i else .error (.reservedArgument op arg)
    | none => .error (.reservedOpcode op)

/-- The low `8n` bits of the data lanes, which are the value of an `n`-byte write (R89). -/
def Width.valueOf (n : Width) (v : Word) : Word :=
  match n with
  | .byte => (v.extractLsb' 0 8).setWidth 32
  | .half => (v.extractLsb' 0 16).setWidth 32
  | .word => v

/-- The operation a step of R8 performs; `none` for the reset input, which is no operation of the table.
A word write to `CMD` is decoded as a command (R131); an illegal command word stays a plain write, whose meaning
raises the fault. -/
def decodeInput : Input → Option Instr
  | .tick => some .tick
  | .read offset width => some (.rd offset width)
  | .write offset width data =>
      let v := width.valueOf data
      if offset = 0#13 ∧ width = .word then
        match decodeCmd v with
        | .ok i => some i
        | .error _ => some (.wr offset width v)
      else some (.wr offset width v)
  | .reset => none

/-- The instruction decoded from a table word: the bits above `nbits` are zero, and a command word has 32. -/
def decodeTableWord (nbits w : Nat) : Option Instr :=
  if 32 < nbits then none
  else
    match decodeCmd (BitVec.ofNat 32 (w % 2 ^ nbits)) with
    | .ok i => some i
    | .error _ => none

/-- The word of a command, the Word column of R122; `none` for what is no command. -/
def encodeCmd : Instr → Option Word
  | .new => some 0x01000000#32
  | .cfgTiming => some 0x02000000#32
  | .stopSync => some 0x03000000#32
  | .rastOpen => some 0x04000000#32
  | .bandsOpen n => some (0x050000#24 ++ n)
  | .rastClose => some 0x06000000#32
  | .syncVblank => some 0x07000000#32
  | .videoOn => some 0x08000000#32
  | .videoOff => some 0x09000000#32
  | .rastDone => some 0x10000000#32
  | .rastFail => some 0x11000000#32
  | .tick => none
  | .sav => none
  | .eav => none
  | .rast _ _ => none
  | .dmabeat => none
  | .rd _ _ => none
  | .wr _ _ _ => none

/-- The step that asks for an operation: a mnemonic of a command stands for a write of its word to `CMD` (R129).
`none` for the four events that only a `Tick` selects (R126). -/
def encode (i : Instr) : Option Input :=
  match i with
  | .tick => some .tick
  | .rd offset width => some (.read offset width)
  | .wr offset width data => some (.write offset width data)
  | .sav => none
  | .eav => none
  | .rast _ _ => none
  | .dmabeat => none
  | .new => (encodeCmd i).map (.write 0#13 .word)
  | .cfgTiming => (encodeCmd i).map (.write 0#13 .word)
  | .stopSync => (encodeCmd i).map (.write 0#13 .word)
  | .rastOpen => (encodeCmd i).map (.write 0#13 .word)
  | .bandsOpen _ => (encodeCmd i).map (.write 0#13 .word)
  | .rastClose => (encodeCmd i).map (.write 0#13 .word)
  | .syncVblank => (encodeCmd i).map (.write 0#13 .word)
  | .videoOn => (encodeCmd i).map (.write 0#13 .word)
  | .videoOff => (encodeCmd i).map (.write 0#13 .word)
  | .rastDone => (encodeCmd i).map (.write 0#13 .word)
  | .rastFail => (encodeCmd i).map (.write 0#13 .word)

end Sys2Proof
end

