-- ==== Sys2Proof/Machine/State.lean ====
section
/-! DEFINITION. The state of VTC (R20: the items of R25 to R51), the model's own fields beside it, the value of
every field after reset (R58), and the reasons a step of the model can stop. -/

namespace Sys2Proof.Machine

/-- A timing descriptor (R25): five horizontal counts, five vertical counts, the divisor, two polarities.
A polarity bit of 1 means that the pulse is the high level. -/
structure Timing where
  cpp : BitVec 8
  hpol : Bool
  vpol : Bool
  hSync : Half
  hBp : Half
  hVideo : Half
  hFp : Half
  hTotal : Half
  vSync : Half
  vBp : Half
  vVideo : Half
  vFp : Half
  vTotal : Half
  deriving DecidableEq, Repr

/-- The descriptor with every field 0, the reset value of R26. -/
def Timing.zero : Timing :=
  { cpp := 0, hpol := false, vpol := false, hSync := 0, hBp := 0, hVideo := 0, hFp := 0, hTotal := 0,
    vSync := 0, vBp := 0, vVideo := 0, vFp := 0, vTotal := 0 }

/-- The shape stored with a buffer, `ctx[b]` (R39): the half-open range of bytes to show, if any. -/
structure Shape where
  start : Half
  stop : Half
  valid : Bool
  deriving DecidableEq, Repr

/-- The driver state `dstate` (R27). -/
inductive DState where
  | idle
  | syncGen
  | rasterLoaded
  deriving DecidableEq, Repr

/-- What a wait for vblank does when it completes (R28). -/
inductive WaitThen where
  | done
  | gateOn
  | gateOff
  deriving DecidableEq, Repr

/-- The host operation in progress, `hop` (R28). -/
inductive HostOp where
  | none
  | waitVbl (sample : Word) (next : WaitThen)
  | gateHold (rem : Nat) (target : Bool)
  | drain
  deriving DecidableEq, Repr

/-- The tag of a rasterizer slot (R48). -/
inductive SlotTag where
  | empty
  | loaded
  deriving DecidableEq, Repr

/-- The holder of the hardware-resource mutex, `mtx_owner` (R50). -/
inductive MtxOwner where
  | free
  | thread
  deriving DecidableEq, Repr

/-- The fault causes of R301. -/
inductive Cause where
  | deadlineMiss
  | cppRange
  | threadMutex
  /-- Reserved: no rule of the spec raises it (R235, U9). -/
  | isrMutex
  | rasterizerFault
  | illegalOp
  | vblankOverflow
  | badCtx
  deriving DecidableEq, Repr

/-- The contents of the two scanline buffers: a list of (address, byte) pairs whose addresses strictly rise.
An address that is not listed has not been written since the last reset (log entry 3). -/
abbrev Memory := List Host.Cell

/-- The state of VTC, and after it five fields of the model's own. -/
structure State where
  /-- `TD_CTRL`, the staging word of `cpp`, `hpol`, `vpol` (R25, R52). -/
  tdCtrl : Word
  /-- `TD_H0`. -/
  tdH0 : Word
  /-- `TD_H1`. -/
  tdH1 : Word
  /-- `TD_H2`. -/
  tdH2 : Word
  /-- `TD_V0`. -/
  tdV0 : Word
  /-- `TD_V1`. -/
  tdV1 : Word
  /-- `TD_V2`. -/
  tdV2 : Word
  /-- `T`, the active descriptor (R26). -/
  timing : Timing
  /-- `init` (R27). -/
  init : Bool
  /-- `dstate` (R27). -/
  dstate : DState
  /-- `hop` (R28). -/
  hop : HostOp
  /-- `RESULT` (R29). -/
  result : Word
  /-- `hcount` (R30). -/
  hcount : Half
  /-- `vline` (R30). -/
  vline : Half
  /-- `tim_run` (R31). -/
  timRun : Bool
  /-- `evt_mask` (R31). -/
  evtMask : Bool
  /-- `pins_driven` (R34). -/
  pinsDriven : Bool
  /-- `vbl_count` (R35). -/
  vblCount : Word
  /-- `vbl_flag` (R36). -/
  vblFlag : Bool
  /-- `BUF[0]` and `BUF[1]` (R37). -/
  mem : Memory
  /-- `work` (R38); `false` is 0. -/
  work : Bool
  /-- `ctx[0]` (R39). -/
  ctx0 : Shape
  /-- `ctx[1]` (R39). -/
  ctx1 : Shape
  /-- `fresh` (R40). -/
  fresh : Bool
  /-- `repeat_ctr` (R41). -/
  repeatCtr : Half
  /-- `rast_busy` (R42). -/
  rastBusy : Bool
  /-- `rast_line` (R42). -/
  rastLine : Half
  /-- `rast_slot` (R42). -/
  rastSlot : BitVec 8
  /-- `rast_fn` (R42). -/
  rastFn : Word
  /-- `CTX_RANGE` (R43). -/
  ctxRange : Word
  /-- `CTX_MODE` (R43). -/
  ctxMode : Word
  /-- `dma_active` (R44). -/
  dmaActive : Bool
  /-- `dma_ptr` (R44). -/
  dmaPtr : Half
  /-- `dma_rem` (R44). -/
  dmaRem : Half
  /-- `dma_div` (R44). -/
  dmaDiv : BitVec 8
  /-- `dma_next` (R44), a natural. -/
  dmaNext : Nat
  /-- `shift_div` (R45). -/
  shiftDiv : BitVec 8
  /-- `live` (R46). -/
  live : Bool
  /-- `video_out` (R47). -/
  videoOut : Byte
  /-- `video_en` (R47). -/
  videoEn : Bool
  /-- `SLOT_FN[0..15]` (R48). -/
  slotFn : Vector Word 16
  /-- `tag[0..15]` (R48). -/
  tags : Vector SlotTag 16
  /-- `BAND_RANGE[0..15]` (R49). -/
  bandRange : Vector Word 16
  /-- `BAND_SLOT[0..15]` (R49). -/
  bandSlot : Vector Word 16
  /-- `band_n` (R49). -/
  bandN : BitVec 8
  /-- `band_ptr` (R49). -/
  bandPtr : BitVec 8
  /-- `mtx_owner` (R50). -/
  mtxOwner : MtxOwner
  /-- `faulted` (R51). -/
  faulted : Bool
  /-- `FAULT` (R51). -/
  fault : Word
  /-- `FAULT_INFO` (R51). -/
  faultInfo : Word
  /-- MODEL'S OWN (log entry 2): the open parameters of R9; no step changes them. -/
  params : Params
  /-- MODEL'S OWN (log entry 5): what the last `RD` returned on the bus; no rule reads it. -/
  rdata : Word
  /-- MODEL'S OWN (log entry 1): the steps the agents have asked for, the next one first. -/
  sched : List Input
  /-- MODEL'S OWN (log entry 4): how many steps have been taken; only a free value reads it. -/
  stepNo : Nat
  /-- MODEL'S OWN (log entry 3): how many `Reset` steps have been taken; only a free value reads it. -/
  resets : Nat
  deriving DecidableEq, Repr

/-- VTC with parameters `p` right after reset: the table of R58. -/
def State.initial (p : Params) : State :=
  { tdCtrl := 0, tdH0 := 0, tdH1 := 0, tdH2 := 0, tdV0 := 0, tdV1 := 0, tdV2 := 0
    timing := Timing.zero
    init := false, dstate := .idle, hop := .none, result := 0
    hcount := 0, vline := 0
    timRun := false, evtMask := true, pinsDriven := false
    vblCount := 0, vblFlag := false
    mem := [], work := false
    ctx0 := { start := 0, stop := 0, valid := false }
    ctx1 := { start := 0, stop := 0, valid := false }
    fresh := false, repeatCtr := 0
    rastBusy := false, rastLine := 0, rastSlot := 0, rastFn := 0
    ctxRange := 0, ctxMode := 1
    dmaActive := false, dmaPtr := 0, dmaRem := 0, dmaDiv := 0, dmaNext := 0
    shiftDiv := 0, live := false
    videoOut := 0, videoEn := false
    slotFn := Vector.replicate 16 0, tags := Vector.replicate 16 .empty
    bandRange := Vector.replicate 16 0, bandSlot := Vector.replicate 16 0
    bandN := 0, bandPtr := 0
    mtxOwner := .free
    faulted := false, fault := 0, faultInfo := 0
    params := p, rdata := 0, sched := [], stepNo := 0, resets := 0 }

/-- The machine right after reset, with the default parameters of R9 and nothing asked for by any agent. -/
def State.reset : State := State.initial Params.default

/-- Why a step of the MODEL stops. A fault of VTC (R303) is no such stop: VTC goes on, in a faulted next state. -/
inductive Fault where
  /-- Contention of two sequencer events. R235: "never raised by the rules of this spec", and an implementation
  whose events take time "must raise it". No step of this model raises it, since its events are atomic; the
  reason is kept free as U9 asks. Safe: it cannot occur. -/
  | isrContention
  deriving DecidableEq, Repr

/-- Why the model gives an instruction no meaning. -/
inductive Refusal where
  /-- Raised by `exec` alone, for an instruction the model has no meaning for; no arm raises it now. Safe. -/
  | notModelled (mnemonic : String)
  deriving DecidableEq, Repr

end Sys2Proof.Machine
end

