-- ==== Sys2Proof/Machine/Operands.lean ====
section
/-! DEFINITION. The operands of the operations: how the fields of R43, R49 and R123 stand in their words, the derived
quantities of R14, and the reads of the register arrays. -/

namespace Sys2Proof.Machine

/-- `w[15:0]`. -/
def lowHalf (w : Word) : Half := w.extractLsb' 0 16

/-- `w[31:16]`. -/
def highHalf (w : Word) : Half := w.extractLsb' 16 16

/-- The descriptor staged in `TD_*` (R123). -/
def stagedTiming (s : State) : Timing :=
  { cpp := s.tdCtrl.extractLsb' 0 8
    hpol := s.tdCtrl.getLsbD 8
    vpol := s.tdCtrl.getLsbD 9
    hSync := lowHalf s.tdH0
    hBp := highHalf s.tdH0
    hVideo := lowHalf s.tdH1
    hFp := highHalf s.tdH1
    hTotal := lowHalf s.tdH2
    vSync := lowHalf s.tdV0
    vBp := highHalf s.tdV0
    vVideo := lowHalf s.tdV1
    vFp := highHalf s.tdV1
    vTotal := lowHalf s.tdV2 }

/-- `PERIOD` (R14): ticks per line. -/
def Timing.period (t : Timing) : Nat := t.cpp.toNat * t.hTotal.toNat

/-- `M_SAV` (R14): the `hcount` value at which `SAV` matches. -/
def Timing.mSav (t : Timing) : Nat := t.cpp.toNat * (t.hSync.toNat + t.hBp.toNat - 1)

/-- `M_PIX0` (R14): the `hcount` value of the first beat. -/
def Timing.mPix0 (t : Timing) : Nat := t.cpp.toNat * (t.hSync.toNat + t.hBp.toNat)

/-- `M_EAV` (R14): the `hcount` value at which `EAV` matches. -/
def Timing.mEav (t : Timing) : Nat := t.cpp.toNat * (t.hSync.toNat + t.hBp.toNat + t.hVideo.toNat)

/-- `VB` (R14): the number of blanking lines of a frame. -/
def Timing.vb (t : Timing) : Nat := t.vFp.toNat + t.vSync.toNat + t.vBp.toNat

/-- `visible(v)` (R14): frame line `v` carries video. -/
def Timing.visible (t : Timing) (v : Half) : Bool := decide (t.vb ≤ v.toNat)

/-- `rline(v)` (R14): the visible line number of a visible frame line. -/
def Timing.rline (t : Timing) (v : Half) : Nat := v.toNat - t.vb

/-- The validity clauses V1 to V5 of R151, on naturals (R164). -/
def Timing.valid (t : Timing) : Bool :=
  t.cpp != 0
    && (t.hBp != 0 && t.hFp != 0 && t.vBp != 0 && t.vFp != 0)
    && decide (t.cpp.toNat * t.hTotal.toNat ≤ Config.periodMax)
    && decide (t.hTotal.toNat = t.hSync.toNat + t.hBp.toNat + t.hVideo.toNat + t.hFp.toNat)
    && decide (t.vTotal.toNat = t.vSync.toNat + t.vBp.toNat + t.vVideo.toNat + t.vFp.toNat)

/-- `repeat_lines` of a `CTX_MODE` word (R43). -/
def ctxRepeat (mode : Word) : Half := lowHalf mode

/-- `ovr_valid` of a `CTX_MODE` word (R43). -/
def ctxOvrValid (mode : Word) : Bool := mode.getLsbD 16

/-- `ovr` of a `CTX_MODE` word (R43). -/
def ctxOvr (mode : Word) : BitVec 8 := mode.extractLsb' 24 8

/-- The effective shift divisor of the context now in `CTX_MODE` (R192, R193 step 3). -/
def effectiveDiv (s : State) : BitVec 8 :=
  if ctxOvrValid s.ctxMode then ctxOvr s.ctxMode else s.timing.cpp

/-- `start_line` of a `BAND_RANGE` word (R49). -/
def bandStart (w : Word) : Half := lowHalf w

/-- `end_line_exclusive` of a `BAND_RANGE` word (R49). -/
def bandEnd (w : Word) : Half := highHalf w

/-- `rasterizer_slot_index` of a `BAND_SLOT` word (R49). -/
def bandSlotIndex (w : Word) : BitVec 8 := w.extractLsb' 0 8

/-- Element `i` of a register array of 16; past its end, where no rule says what is read, the value given
for it (log entry 6). -/
def arrayAt {α : Type} (v : Vector α 16) (absent : Nat → α) (i : Nat) : α :=
  if h : i < 16 then v[i] else absent i

/-- `BAND_RANGE[i]` (R49). -/
def bandRangeAt (s : State) (i : Nat) : Word := arrayAt s.bandRange Config.absentBandRange i

/-- The slot index of `BAND_SLOT[i]` (R49). -/
def bandSlotAt (s : State) (i : Nat) : BitVec 8 :=
  bandSlotIndex (arrayAt s.bandSlot Config.absentBandSlot i)

/-- `SLOT_FN[k]` (R48). -/
def slotFnAt (s : State) (k : Nat) : Word := arrayAt s.slotFn Config.absentSlotFn k

/-- `tag[k] = Loaded` (R48). -/
def tagLoaded (s : State) (k : Nat) : Bool :=
  arrayAt s.tags (fun i => if Config.absentTagLoaded i then SlotTag.loaded else SlotTag.empty) k == SlotTag.loaded

/-- `ctx[b]` (R39). -/
def shapeOf (s : State) (b : Bool) : Shape := if b then s.ctx1 else s.ctx0

/-- `ctx[b] <- c` (R39). -/
def setShape (b : Bool) (c : Shape) (s : State) : State :=
  if b then { s with ctx1 := c } else { s with ctx0 := c }

/-- The clauses B1, B2, B4, B5 and B6 of R292 for the first `n` entries of the band table: the number of bands, that they
cover the active region without a gap, and their slots. -/
def bandsCover (s : State) (n : Nat) : Bool :=
  decide (1 ≤ n) && decide (n ≤ Config.nBandsMax)
    && bandStart (bandRangeAt s 0) == 0
    && (List.range (n - 1)).all (fun i => bandEnd (bandRangeAt s i) == bandStart (bandRangeAt s (i + 1)))
    && bandEnd (bandRangeAt s (n - 1)) == s.timing.vVideo
    && (List.range n).all (fun i => decide ((bandSlotAt s i).toNat < Config.nSlots))

/-- The clause B3 of R292: every one of the first `n` bands has a line. -/
def bandsNonEmpty (s : State) (n : Nat) : Bool :=
  (List.range n).all (fun i =>
    decide ((bandStart (bandRangeAt s i)).toNat < (bandEnd (bandRangeAt s i)).toNat))

/-- The well-formedness clauses B1 to B6 of R292 for the first `n` entries of the band table. -/
def bandsWellFormed (s : State) (n : Nat) : Bool := bandsCover s n && bandsNonEmpty s n

end Sys2Proof.Machine
end

