-- ==== Sys2Proof/Machine/Flags.lean ====
section
/-! DEFINITION. The derived flags, the `STATUS` word (R53) and the output pins (R21, R24, R32, R33, R47). -/

namespace Sys2Proof.Machine

/-- `BUSY` (R28). -/
def busy (s : State) : Bool := s.hop != .none

/-- `STATUS.IN_VBLANK` (R53). -/
def inVblankFlag (s : State) : Bool := s.timRun && !s.timing.visible s.vline

/-- The encoding of `dstate` (R27). -/
def DState.code : DState → BitVec 2
  | .idle => 0
  | .syncGen => 1
  | .rasterLoaded => 2

/-- The `STATUS` word, from bit 31 down to bit 0 (R53). -/
def statusWord (s : State) : Word :=
  0#13 ++ BitVec.ofBool s.pinsDriven ++ BitVec.ofBool s.ctx1.valid ++ BitVec.ofBool s.ctx0.valid
    ++ BitVec.ofBool (s.mtxOwner == .thread) ++ BitVec.ofBool s.live ++ BitVec.ofBool s.dmaActive
    ++ BitVec.ofBool s.work ++ BitVec.ofBool s.fresh ++ BitVec.ofBool s.rastBusy
    ++ BitVec.ofBool s.videoEn ++ BitVec.ofBool s.vblFlag ++ BitVec.ofBool (inVblankFlag s)
    ++ BitVec.ofBool s.evtMask ++ BitVec.ofBool s.timRun ++ BitVec.ofBool s.faulted
    ++ BitVec.ofBool (busy s) ++ s.dstate.code ++ BitVec.ofBool s.init

/-- One bit of `SLOT_TAGS` (R52). -/
def SlotTag.bit : SlotTag → Bool
  | .empty => false
  | .loaded => true

/-- The `SLOT_TAGS` word: bit `i` is `tag[i]` (R52). -/
def slotTagsWord (s : State) : Word :=
  (s.tags.toList.map SlotTag.bit).foldr (fun b w => (w <<< 1) ||| (BitVec.ofBool b).setWidth 32) 0

/-- `hsync` (R32); free while faulted (U3). -/
def hsyncPin (s : State) : Level :=
  if s.faulted then Config.faultedHsync s.stepNo
  else if !s.pinsDriven then .z
  else if s.timRun && decide (s.hcount.toNat < s.timing.cpp.toNat * s.timing.hSync.toNat) then
    Level.ofBool s.timing.hpol
  else Level.ofBool (!s.timing.hpol)

/-- `vsync` (R33); free while faulted (U3). -/
def vsyncPin (s : State) : Level :=
  if s.faulted then Config.faultedVsync s.stepNo
  else if !s.pinsDriven then .z
  else if s.timRun && decide (s.timing.vFp.toNat ≤ s.vline.toNat)
      && decide (s.vline.toNat < s.timing.vFp.toNat + s.timing.vSync.toNat) then
    Level.ofBool s.timing.vpol
  else Level.ofBool (!s.timing.vpol)

/-- `video[7:0]` (R47, R239). -/
def videoPins (s : State) : Byte := if s.videoEn then s.videoOut else 0

/-- `rast_irq` (R24). -/
def rastIrqPin (s : State) : Bool := s.rastBusy

/-- `vbl_evt` (R24). -/
def vblEvtPin (s : State) : Bool := s.vblFlag

/-- `fault` (R24). -/
def faultPin (s : State) : Bool := s.faulted

end Sys2Proof.Machine
end

