-- ==== Sys2Proof/Machine/Memory.lean ====
section
/-! DEFINITION. The scanline buffers as one list of cells, and the byte order of the WORK window. -/

namespace Sys2Proof.Machine

/-- The canonical form: the addresses strictly rise. An unlisted address holds no value of its own (its byte is
free, log entry 3), so no entry can equal what an unlisted address reads as. -/
abbrev Memory.wf (m : Memory) : Prop := m.Pairwise (fun x y => x.1 < y.1)

/-- The byte written at an address since the last reset, if any. -/
def Memory.read? : Memory → Nat → Option Byte
  | [], _ => none
  | (a', b) :: m, a => if a = a' then some b else Memory.read? m a

/-- Writing one byte, in the place that keeps the addresses rising. -/
def Memory.write : Memory → Nat → Byte → Memory
  | [], a, b => [(a, b)]
  | (a', b') :: m, a, b =>
      if a < a' then (a, b) :: (a', b') :: m
      else if a = a' then (a, b) :: m
      else (a', b') :: Memory.write m a b

/-- Writing bytes at rising addresses. -/
def Memory.writeBytes : Memory → Nat → List Byte → Memory
  | m, _, [] => m
  | m, a, b :: bs => Memory.writeBytes (Memory.write m a b) (a + 1) bs

/-- The address that the model gives byte `k` of `BUF[b]` (log entry 3): the two buffers, indexed by up to 16 bits,
do not meet. -/
def bufAddr (b : Bool) (k : Nat) : Nat := (if b then 65536 else 0) + k

/-- `BUF[b][k]`: the byte written there since the last reset, or a free value (R37, U1). -/
def bufByte (s : State) (b : Bool) (k : Nat) : Byte :=
  (s.mem.read? (bufAddr b k)).getD (Config.unwrittenByte s.resets (bufAddr b k))

/-- The `n` bytes of a value, the byte of bits 7:0 first: little-endian (R85). -/
def bytesOf (n : Nat) (v : Word) : List Byte :=
  (List.range n).map (fun i => v.extractLsb' (8 * i) 8)

/-- The value whose bytes these are, the first in bits 7:0 (R85, R90). -/
def valueOfBytes (bs : List Byte) : Word :=
  bs.foldr (fun b v => (v <<< 8) ||| b.setWidth 32) 0

/-- The value of an `n`-byte read of `BUF[b]` at byte `k` (R90). -/
def bufValue (s : State) (b : Bool) (k n : Nat) : Word :=
  valueOfBytes ((List.range n).map (fun i => bufByte s b (k + i)))

/-- Writing the low `n` bytes of a value to `BUF[b]` at byte `k` (R85, R91). -/
def storeBuf (b : Bool) (k n : Nat) (v : Word) (s : State) : State :=
  { s with mem := s.mem.writeBytes (bufAddr b k) (bytesOf n v) }

end Sys2Proof.Machine
end

