-- ==== Sys2Proof/Machine/Ops.lean ====
section
/-! DEFINITION. The operations that the meanings share: fault entry, refusal, progress of a host operation, the frame
of a command, the reset step, and what the machine does next. -/

namespace Sys2Proof.Machine

/-- The code of a fault cause (R301). -/
def Cause.code : Cause → Word
  | .deadlineMiss => 1
  | .cppRange => 2
  | .threadMutex => 3
  | .isrMutex => 4
  | .rasterizerFault => 5
  | .illegalOp => 6
  | .vblankOverflow => 7
  | .badCtx => 8

/-- Fault entry, `raise Fault(code, info)` (R303). There is no return from it but reset (R306). -/
def raiseFault (c : Cause) (info : Word) (s : State) : State :=
  { s with fault := c.code, faultInfo := info, faulted := true, dmaActive := false, videoOut := 0 }

/-- A later sub-step of one step: not performed once a fault has been raised (R303 step 4). -/
def thenDo (s : State) (next : State → State) : State := if s.faulted then s else next s

/-- `refuse(code)` (R273). -/
def refuse (code : Word) (s : State) : State := { s with result := code }

/-- A host operation completes: `hop <- None; RESULT <- 0` (R238, R254, R276). -/
def completeHop (s : State) : State := { s with hop := .none, result := 0 }

/-- The host takes the mutex and begins to hold it (R238 phase 2). -/
def acquireGate (target : Bool) (s : State) : State :=
  { s with mtxOwner := .thread, hop := .gateHold s.params.gateHold target }

/-- `progress()` (R276). -/
def progress (s : State) : State :=
  match s.hop with
  | .none => s
  | .drain => if s.rastBusy then s else completeHop { s with dstate := .syncGen }
  | .waitVbl sample next =>
      if sample.toNat < s.vblCount.toNat then
        match next with
        | .done => completeHop { s with vblFlag := false }
        | .gateOn => acquireGate true { s with vblFlag := false }
        | .gateOff => acquireGate false { s with vblFlag := false }
      else s
  | .gateHold _ _ => s

/-- A command word written to `CMD` (R131): dropped when faulted (R305), fault 6 with the word as information when it
is not legal, and otherwise performed and followed by `progress()` (R91, R276). -/
def issueCommand (word : Word) (legal : Bool) (perform : State → State) (s : State) : State :=
  if s.faulted then s
  else if legal then thenDo (perform s) progress
  else raiseFault .illegalOp word s

/-- The legality of a host-class command but `NEW` (R131 step 4): `init = 1`, no host operation in progress, and
`dstate` one of those of R271. -/
def hostLegal (allowed : List DState) (s : State) : Bool :=
  s.init && s.hop == .none && allowed.contains s.dstate

/-- A sequencer event: no event is performed when faulted (R305). -/
def performEvent (event : State → State) (s : State) : State := if s.faulted then s else event s

/-- The `Reset` step (R350): every piece of state as in R58. The model's own fields: the parameters and the steps
still asked for stay, and the reset is counted. -/
def resetStep (s : State) : State :=
  { State.initial s.params with sched := s.sched, stepNo := s.stepNo, resets := s.resets + 1 }

/-- The step that happens next: the first one asked for, and with none asked for a period of `clk` (log entry 1). -/
def nextInput (s : State) : Input := s.sched.headD .tick

/-- The state in which the next step is performed: the step is taken off the list and counted. -/
def takeInput (s : State) : State := { s with sched := s.sched.tail, stepNo := s.stepNo + 1 }

/-- A write of a table word to `CMD` as the next step: what `State.withFetchWord` places. -/
def placeWord (s : State) (nbits w : Nat) : State :=
  { s with sched := .write 0#13 .word (BitVec.ofNat 32 (w % 2 ^ nbits)) :: s.sched }

end Sys2Proof.Machine
end

