-- ==== Sys2Proof/Machine/Bands.lean ====
section
/-! DEFINITION. The band scheduler: `BANDS_OPEN` (`47_band_scheduler.md`). -/

namespace Sys2Proof.Machine

/-- The tags with the slots of the first `n` bands Loaded, all in one step (R291 step 2). -/
def loadTags (s : State) (n : Nat) : Vector SlotTag 16 :=
  (List.range n).foldl (fun tags i => tags.setIfInBounds (bandSlotAt s i).toNat .loaded) s.tags

/-- `BANDS_OPEN n` (R291); an illegal command when there is no band scheduler (R124, R290). -/
def bandsOpenCommand (n : BitVec 8) : State → State :=
  fun s => issueCommand (0x050000#24 ++ n) (s.params.hasBands && hostLegal [.syncGen] s)
    (fun s =>
      if bandsWellFormed s n.toNat then
        { s with bandN := n, tags := loadTags s n.toNat, dstate := .rasterLoaded, result := 0 }
      else refuse 2 s) s

/-- The meaning of `BANDS_OPEN n`. -/
def execBandsOpen (n : BitVec 8) (s : State) : Host.Outcome State Fault Refusal := .next (bandsOpenCommand n s)

end Sys2Proof.Machine
end

