-- ==== Sys2Proof/Machine/Driver.lean ====
section
/-! DEFINITION. The driver handle: `NEW` and `SYNC_VBLANK` (`45_driver_handle.md`). -/

namespace Sys2Proof.Machine

/-- `NEW` (R274). -/
def newCommand : State → State :=
  fun s => issueCommand 0x01000000#32 (!s.init && s.hop == .none)
    (fun s => { s with init := true, dstate := .idle, result := 0 }) s

/-- The meaning of `NEW`. -/
def execNew (s : State) : Host.Outcome State Fault Refusal := .next (newCommand s)

/-- `SYNC_VBLANK` (R275). -/
def syncVblankCommand : State → State :=
  fun s => issueCommand 0x07000000#32 (hostLegal [.syncGen, .rasterLoaded] s)
    (fun s => { s with hop := .waitVbl s.vblCount .done }) s

/-- The meaning of `SYNC_VBLANK`. -/
def execSyncVblank (s : State) : Host.Outcome State Fault Refusal := .next (syncVblankCommand s)

end Sys2Proof.Machine
end

