-- ==== Sys2Proof/Machine/Gate.lean ====
section
/-! DEFINITION. The video gate: `VIDEO_ON`, `VIDEO_OFF` and the countdown of the mutex hold
(`43_mutex_and_video_gate.md`). -/

namespace Sys2Proof.Machine

/-- `VIDEO_ON` (R236). -/
def videoOnCommand : State → State :=
  fun s => issueCommand 0x08000000#32 (hostLegal [.syncGen, .rasterLoaded] s)
    (fun s => { s with hop := .waitVbl s.vblCount .gateOn }) s

/-- The meaning of `VIDEO_ON`. -/
def execVideoOn (s : State) : Host.Outcome State Fault Refusal := .next (videoOnCommand s)

/-- `VIDEO_OFF` (R237). -/
def videoOffCommand : State → State :=
  fun s => issueCommand 0x09000000#32 (hostLegal [.syncGen, .rasterLoaded] s)
    (fun s => { s with hop := .waitVbl s.vblCount .gateOff }) s

/-- The meaning of `VIDEO_OFF`. -/
def execVideoOff (s : State) : Host.Outcome State Fault Refusal := .next (videoOffCommand s)

/-- The countdown of a gate operation, phases 3 and 4 of R238. -/
def gateCountdown (s : State) : State :=
  match s.hop with
  | .gateHold rem target =>
      if rem - 1 = 0 then completeHop { s with videoEn := target, mtxOwner := .free }
      else { s with hop := .gateHold (rem - 1) target }
  | .none => s
  | .waitVbl _ _ => s
  | .drain => s

end Sys2Proof.Machine
end

