-- ==== Sys2Proof/Machine/Scanout.lean ====
section
/-! DEFINITION. The scan-out engine: the events `SAV`, `EAV`, `RAST`, `DMABEAT` and the commands `RAST_DONE` and
`RAST_FAIL` (`42_scanout_engine.md`). -/

namespace Sys2Proof.Machine

/-- The swap of R182 step 4. -/
def swapBuffers (s : State) : State := if s.fresh then { s with work := !s.work, fresh := false } else s

/-- The start of the transfer, R182 step 5. -/
def armDma (s : State) : State :=
  let c := shapeOf s (!s.work)
  if c.valid && decide (c.start.toNat < c.stop.toNat) then
    { s with
      dmaActive := true
      dmaPtr := c.start
      dmaRem := c.stop - c.start
      dmaDiv := s.shiftDiv
      dmaNext := s.timing.mPix0 }
  else s

/-- `SAV` (R182). -/
def savEvent (s : State) : State :=
  if s.mtxOwner = .thread then raiseFault .threadMutex (s.vline.setWidth 32) s
  else if s.rastBusy then raiseFault .deadlineMiss (s.rastLine.setWidth 32) s
  else if s.dmaActive then raiseFault .deadlineMiss 0xFFFFFFFF#32 s
  else armDma (swapBuffers s)

/-- The meaning of `SAV`. -/
def execSav (s : State) : Host.Outcome State Fault Refusal := .next (performEvent savEvent s)

/-- `RAST(r, k)` (R186). -/
def rastEvent (r : Half) (k : BitVec 8) (s : State) : State :=
  if s.rastBusy then raiseFault .deadlineMiss (s.rastLine.setWidth 32) s
  else
    { s with
      rastBusy := true
      rastLine := r, rastSlot := k, rastFn := slotFnAt s k.toNat
      ctxRange := 0x00000000#32, ctxMode := 0x00000001#32 }

/-- The meaning of `RAST(r, k)`. -/
def execRast (r : BitVec 16) (k : BitVec 8) (s : State) : Host.Outcome State Fault Refusal :=
  .next (performEvent (rastEvent r k) s)

/-- The frame boundary (R184), with `vline` already advanced. -/
def frameBoundary (s : State) : State :=
  if s.vline = 0 then
    if s.vblCount = 0xFFFFFFFF#32 then raiseFault .vblankOverflow 0 s
    else { s with vblCount := s.vblCount + 1, vblFlag := true, bandPtr := 0, repeatCtr := 0 }
  else s

/-- R185 step 1: rasterization starts at visible line 0 of a frame. -/
def goLive (r : Nat) (s : State) : State :=
  if r = 0 && s.dstate == .rasterLoaded && decide (1 ≤ s.bandN.toNat) && tagLoaded s (bandSlotAt s 0).toNat then
    { s with live := true }
  else s

/-- R185 step 2: nothing is shown on a line with no live rasterizer. -/
def clearShapes (s : State) : State :=
  { s with
    ctx0 := { s.ctx0 with valid := false }
    ctx1 := { s.ctx1 with valid := false }
    fresh := false, repeatCtr := 0 }

/-- R185 step 3a: the band pointer. -/
def stepBand (r : Nat) (s : State) : State :=
  if s.bandPtr.toNat + 1 < s.bandN.toNat && r = (bandEnd (bandRangeAt s s.bandPtr.toNat)).toNat then
    { s with bandPtr := s.bandPtr + 1, repeatCtr := 0 }
  else s

/-- R185 step 3b: the repeat counter. -/
def countRepeat (s : State) : State :=
  if s.repeatCtr.toNat > 0 then { s with repeatCtr := s.repeatCtr - 1 } else s

/-- R185 step 3c: dispatch, unless the line is a repeat. -/
def dispatchLine (r : Nat) (s : State) : State :=
  if s.repeatCtr = 0 then rastEvent (BitVec.ofNat 16 r) (bandSlotAt s s.bandPtr.toNat) s else s

/-- What to rasterize next (R185), with `vline` already advanced. -/
def chooseRaster (s : State) : State :=
  if s.timing.visible s.vline then
    let r := s.timing.rline s.vline
    let s := goLive r s
    if s.live then dispatchLine r (countRepeat (stepBand r s)) else clearShapes s
  else s

/-- The frame line after this one (R183 step 1). -/
def nextLine (s : State) : Half :=
  if s.vline.toNat + 1 = s.timing.vTotal.toNat then 0 else s.vline + 1

/-- `EAV` (R183 to R185). -/
def eavEvent (s : State) : State :=
  let nv := nextLine s
  if s.mtxOwner = .thread ∧ s.timing.visible nv = true then raiseFault .threadMutex (nv.setWidth 32) s
  else thenDo (frameBoundary { s with dmaActive := false, videoOut := 0, vline := nv }) chooseRaster

/-- The meaning of `EAV`. -/
def execEav (s : State) : Host.Outcome State Fault Refusal := .next (performEvent eavEvent s)

/-- `DMABEAT` (R187). -/
def dmaBeat (s : State) : State :=
  { s with
    videoOut := bufByte s (!s.work) s.dmaPtr.toNat
    dmaPtr := s.dmaPtr + 1
    dmaRem := s.dmaRem - 1
    dmaNext := s.dmaNext + s.dmaDiv.toNat
    dmaActive := if s.dmaRem - 1 = 0 then false else s.dmaActive }

/-- The meaning of `DMABEAT`. -/
def execDmabeat (s : State) : Host.Outcome State Fault Refusal := .next (performEvent dmaBeat s)

/-- R193 step 2: the context breaks a constraint of its record. -/
def badContext (s : State) : Bool :=
  ctxRepeat s.ctxMode == 0
    || decide ((highHalf s.ctxRange).toNat < (lowHalf s.ctxRange).toNat)
    || decide (s.params.bufBytes < (highHalf s.ctxRange).toNat)

/-- R193 step 3: the effective divisor is out of its bounds. -/
def divOutOfRange (s : State) : Bool :=
  decide ((effectiveDiv s).toNat < s.params.ovrMin) || decide (s.params.ovrMax < (effectiveDiv s).toNat)

/-- R193 steps 4 to 8: the working buffer and its context are committed. -/
def commitContext (s : State) : State :=
  { setShape s.work { start := lowHalf s.ctxRange, stop := highHalf s.ctxRange, valid := true } s with
    repeatCtr := ctxRepeat s.ctxMode
    fresh := true
    shiftDiv := effectiveDiv s
    rastBusy := false }

/-- `RAST_DONE` (R193). Its step 9 is the `progress()` that ends every bus write. -/
def rastDoneCommand : State → State :=
  fun s => issueCommand 0x10000000#32 s.rastBusy
    (fun s =>
      if badContext s then raiseFault .badCtx (s.rastLine.setWidth 32) s
      else if divOutOfRange s then raiseFault .cppRange ((effectiveDiv s).setWidth 32) s
      else commitContext s) s

/-- The meaning of `RAST_DONE`. -/
def execRastDone (s : State) : Host.Outcome State Fault Refusal := .next (rastDoneCommand s)

/-- `RAST_FAIL` (R194). -/
def rastFailCommand : State → State :=
  fun s => issueCommand 0x11000000#32 s.rastBusy
    (fun s => raiseFault .rasterizerFault (s.rastLine.setWidth 32) s) s

/-- The meaning of `RAST_FAIL`. -/
def execRastFail (s : State) : Host.Outcome State Fault Refusal := .next (rastFailCommand s)

end Sys2Proof.Machine
end

