-- ==== Sys2Proof/Machine/Slot.lean ====
section
/-! DEFINITION. The rasterizer slot: `RAST_OPEN` and `RAST_CLOSE` (`44_raster_slot.md`). -/

namespace Sys2Proof.Machine

/-- `RAST_OPEN` (R252): one band that covers every visible line. -/
def rastOpenCommand : State → State :=
  fun s => issueCommand 0x04000000#32 (hostLegal [.syncGen] s)
    (fun s => { s with
      bandRange := s.bandRange.set 0 (s.timing.vVideo ++ 0#16)
      bandSlot := s.bandSlot.set 0 0
      bandN := 1
      tags := s.tags.set 0 .loaded
      dstate := .rasterLoaded, result := 0 }) s

/-- The meaning of `RAST_OPEN`. -/
def execRastOpen (s : State) : Host.Outcome State Fault Refusal := .next (rastOpenCommand s)

/-- `RAST_CLOSE` (R253). Its step 4 is the `progress()` that ends every bus write. -/
def rastCloseCommand : State → State :=
  fun s => issueCommand 0x06000000#32 (hostLegal [.rasterLoaded] s)
    (fun s => { s with tags := Vector.replicate 16 .empty, live := false, hop := .drain }) s

/-- The meaning of `RAST_CLOSE`. -/
def execRastClose (s : State) : Host.Outcome State Fault Refusal := .next (rastCloseCommand s)

end Sys2Proof.Machine
end

