-- ==== Sys2Proof/Machine/Sync.lean ====
section
/-! DEFINITION. The sync generator: `CFG_TIMING` and `STOP_SYNC` (`41_sync_generator.md`). -/

namespace Sys2Proof.Machine

/-- `CFG_TIMING` with a valid staged descriptor (R152). -/
def startSync (s : State) : State :=
  { s with
    timing := stagedTiming s
    hcount := 0, vline := 0
    shiftDiv := (stagedTiming s).cpp
    work := false, fresh := false, repeatCtr := 0, live := false, bandPtr := 0
    ctx0 := { s.ctx0 with valid := false }
    ctx1 := { s.ctx1 with valid := false }
    rastBusy := false, dmaActive := false, videoOut := 0
    mtxOwner := .free
    pinsDriven := true, timRun := true
    evtMask := false
    dstate := .syncGen, result := 0 }

/-- `CFG_TIMING` (R151 to R153). -/
def cfgTimingCommand : State → State :=
  fun s => issueCommand 0x02000000#32 (hostLegal [.idle] s)
    (fun s => if (stagedTiming s).valid then startSync s else refuse 1 s) s

/-- The meaning of `CFG_TIMING`. -/
def execCfgTiming (s : State) : Host.Outcome State Fault Refusal := .next (cfgTimingCommand s)

/-- `STOP_SYNC` (R156). -/
def stopSyncCommand : State → State :=
  fun s => issueCommand 0x03000000#32 (hostLegal [.syncGen] s)
    (fun s => { s with
      evtMask := true, timRun := false, dmaActive := false, videoOut := 0, dstate := .idle, result := 0 }) s

/-- The meaning of `STOP_SYNC`. -/
def execStopSync (s : State) : Host.Outcome State Fault Refusal := .next (stopSyncCommand s)

end Sys2Proof.Machine
end

