-- ==== Sys2Proof/Machine/Bus.lean ====
section
/-! DEFINITION. The register map (R52) and the bus operations `RD` and `WR` (R86, R90 to R92). -/

namespace Sys2Proof.Machine

/-- The registers of R52. -/
inductive Reg where
  | cmd
  | status
  | result
  | fault
  | faultInfo
  | vblCount
  | pos
  | rastLine
  | rastFn
  | ctxRange
  | ctxMode
  | shiftDiv
  | slotTags
  | repeatCtr
  | bandState
  | shape0
  | shape1
  | tdCtrl
  | tdH0
  | tdH1
  | tdH2
  | tdV0
  | tdV1
  | tdV2
  | slotFn (i : Fin 16)
  | bandRange (i : Fin 16)
  | bandSlot (i : Fin 16)
  deriving DecidableEq, Repr

/-- The offsets of the single registers (R52). -/
def regMap : List (Nat × Reg) :=
  [(0x000, .cmd), (0x004, .status), (0x008, .result), (0x00C, .fault), (0x010, .faultInfo),
   (0x014, .vblCount), (0x018, .pos), (0x01C, .rastLine), (0x020, .rastFn), (0x024, .ctxRange),
   (0x028, .ctxMode), (0x02C, .shiftDiv), (0x030, .slotTags), (0x034, .repeatCtr), (0x038, .bandState),
   (0x03C, .shape0), (0x040, .shape1),
   (0x060, .tdCtrl), (0x064, .tdH0), (0x068, .tdH1), (0x06C, .tdH2), (0x070, .tdV0), (0x074, .tdV1),
   (0x078, .tdV2)]

/-- The register at an offset that is a multiple of 4 (R52); `none` where no register is. -/
def regAt (off : Nat) : Option Reg :=
  if 0x080 ≤ off ∧ off < 0x0C0 then some (.slotFn (Fin.ofNat 16 ((off - 0x080) / 4)))
  else if 0x100 ≤ off ∧ off < 0x180 then
    if off % 8 = 0 then some (.bandRange (Fin.ofNat 16 ((off - 0x100) / 8)))
    else some (.bandSlot (Fin.ofNat 16 ((off - 0x100) / 8)))
  else regMap.lookup off

/-- What an access reaches. -/
inductive Target where
  | reg (r : Reg)
  /-- The WORK window, from byte `k` of the working buffer on. -/
  | window (k : Nat)
  /-- Misaligned, of a wrong width, outside the window or unmapped (R86). -/
  | illegal
  deriving DecidableEq, Repr

/-- What an access of a width at an offset reaches (R52, R81, R86). -/
def target (p : Params) (offset : BitVec 13) (width : Width) : Target :=
  let off := offset.toNat
  let n := width.bytes
  if 0x1000 ≤ off then
    if (off - 0x1000) % n = 0 ∧ off - 0x1000 + n ≤ p.bufBytes then .window (off - 0x1000) else .illegal
  else if width = .word ∧ off % 4 = 0 then
    match regAt off with
    | some r => .reg r
    | none => .illegal
  else .illegal

/-- The information word of an access fault: `0x8000_0000 | offset` (R92). -/
def accessInfo (offset : BitVec 13) : Word := 0x80000000#32 ||| offset.setWidth 32

/-- The value a register reads as (R52); a write-only register reads as 0. -/
def regValue (r : Reg) (s : State) : Word :=
  match r with
  | .cmd => 0
  | .status => statusWord s
  | .result => s.result
  | .fault => s.fault
  | .faultInfo => s.faultInfo
  | .vblCount => s.vblCount
  | .pos => s.vline ++ s.hcount
  | .rastLine => 0#8 ++ s.rastSlot ++ s.rastLine
  | .rastFn => s.rastFn
  | .ctxRange => s.ctxRange
  | .ctxMode => s.ctxMode
  | .shiftDiv => 0#24 ++ s.shiftDiv
  | .slotTags => slotTagsWord s
  | .repeatCtr => 0#16 ++ s.repeatCtr
  | .bandState => 0#16 ++ s.bandPtr ++ s.bandN
  | .shape0 => s.ctx0.stop ++ s.ctx0.start
  | .shape1 => s.ctx1.stop ++ s.ctx1.start
  | .tdCtrl => s.tdCtrl
  | .tdH0 => s.tdH0
  | .tdH1 => s.tdH1
  | .tdH2 => s.tdH2
  | .tdV0 => s.tdV0
  | .tdV1 => s.tdV1
  | .tdV2 => s.tdV2
  | .slotFn i => s.slotFn[i]
  | .bandRange i => s.bandRange[i]
  | .bandSlot i => s.bandSlot[i]

/-- Whether a register, `CMD` apart, may be written now: its access and its write condition (R52, R91, R358). -/
def regWritable (r : Reg) (s : State) : Bool :=
  match r with
  | .cmd => false
  | .status => false
  | .result => false
  | .fault => false
  | .faultInfo => false
  | .vblCount => false
  | .pos => false
  | .rastLine => false
  | .rastFn => false
  | .ctxRange => s.rastBusy
  | .ctxMode => s.rastBusy
  | .shiftDiv => false
  | .slotTags => false
  | .repeatCtr => false
  | .bandState => false
  | .shape0 => false
  | .shape1 => false
  | .tdCtrl => true
  | .tdH0 => true
  | .tdH1 => true
  | .tdH2 => true
  | .tdV0 => true
  | .tdV1 => true
  | .tdV2 => true
  | .slotFn _ => s.dstate != .rasterLoaded
  | .bandRange _ => s.dstate != .rasterLoaded
  | .bandSlot _ => s.dstate != .rasterLoaded

/-- `register <- v` for a register that may be written; reserved fields are kept as written (R52). -/
def regWrite (r : Reg) (v : Word) (s : State) : State :=
  match r with
  | .cmd => s
  | .status => s
  | .result => s
  | .fault => s
  | .faultInfo => s
  | .vblCount => s
  | .pos => s
  | .rastLine => s
  | .rastFn => s
  | .ctxRange => { s with ctxRange := v }
  | .ctxMode => { s with ctxMode := v }
  | .shiftDiv => s
  | .slotTags => s
  | .repeatCtr => s
  | .bandState => s
  | .shape0 => s
  | .shape1 => s
  | .tdCtrl => { s with tdCtrl := v }
  | .tdH0 => { s with tdH0 := v }
  | .tdH1 => { s with tdH1 := v }
  | .tdH2 => { s with tdH2 := v }
  | .tdV0 => { s with tdV0 := v }
  | .tdV1 => { s with tdV1 := v }
  | .tdV2 => { s with tdV2 := v }
  | .slotFn i => { s with slotFn := s.slotFn.set i v }
  | .bandRange i => { s with bandRange := s.bandRange.set i v }
  | .bandSlot i => { s with bandSlot := s.bandSlot.set i v }

/-- A defined command performed (R131 steps 3 and 4). The seven operations that are no command have no word, and
no decoding of a word gives one of them. -/
def performCommand (i : Instr) (s : State) : State :=
  match i with
  | .new => newCommand s
  | .cfgTiming => cfgTimingCommand s
  | .stopSync => stopSyncCommand s
  | .rastOpen => rastOpenCommand s
  | .bandsOpen n => bandsOpenCommand n s
  | .rastClose => rastCloseCommand s
  | .syncVblank => syncVblankCommand s
  | .videoOn => videoOnCommand s
  | .videoOff => videoOffCommand s
  | .rastDone => rastDoneCommand s
  | .rastFail => rastFailCommand s
  | .tick => s
  | .sav => s
  | .eav => s
  | .rast _ _ => s
  | .dmabeat => s
  | .rd _ _ => s
  | .wr _ _ _ => s

/-- A write of `v` to `CMD` (R131). -/
def commandWrite (v : Word) (s : State) : State :=
  match decodeCmd v with
  | .ok i => performCommand i s
  | .error _ => raiseFault .illegalOp v s

/-- `MemRead(offset, n)` (R90). The value read is left in `rdata`; a legal read changes nothing else (R88). -/
def readStep (offset : BitVec 13) (width : Width) (s : State) : State :=
  match target s.params offset width with
  | .reg r => { s with rdata := regValue r s }
  | .window k => { s with rdata := bufValue s s.work k width.bytes }
  | .illegal =>
      { (if s.faulted then s else raiseFault .illegalOp (accessInfo offset) s) with rdata := 0 }

/-- The meaning of `RD offset, n`. -/
def execRd (offset : BitVec 13) (width : Width) (s : State) : Host.Outcome State Fault Refusal :=
  .next (readStep offset width s)

/-- `MemWrite(offset, n, v)` (R91, R92). -/
def writeStep (offset : BitVec 13) (width : Width) (v : Word) (s : State) : State :=
  if s.faulted then s
  else
    match target s.params offset width with
    | .illegal => raiseFault .illegalOp (accessInfo offset) s
    | .reg .cmd => commandWrite v s
    | .reg r =>
        if regWritable r s then progress (regWrite r v s)
        else raiseFault .illegalOp (accessInfo offset) s
    | .window k =>
        if s.rastBusy then progress (storeBuf s.work k width.bytes v s)
        else raiseFault .illegalOp (accessInfo offset) s

/-- The meaning of `WR offset, n, value`. -/
def execWr (offset : BitVec 13) (width : Width) (data : BitVec 32) (s : State) :
    Host.Outcome State Fault Refusal :=
  .next (writeStep offset width data s)

end Sys2Proof.Machine
end

