-- ==== Sys2Proof/Machine/Tick.lean ====
section
/-! DEFINITION. What one `Tick` step does (R157), and the conditions that select the events inside it (R126). -/

namespace Sys2Proof.Machine

/-- The condition of `SAV` (R126, R157 sub-step 1). -/
def savDue (s : State) : Bool :=
  !s.evtMask && decide (s.hcount.toNat = s.timing.mSav) && s.timing.visible s.vline

/-- The condition of `EAV` (R126, R157 sub-step 2). -/
def eavDue (s : State) : Bool := !s.evtMask && decide (s.hcount.toNat = s.timing.mEav)

/-- The condition of `DMABEAT` (R126, R157 sub-step 3). -/
def beatDue (s : State) : Bool := s.dmaActive && decide (s.hcount.toNat = s.dmaNext)

/-- `hop` is `GateHold`. -/
def gateHeld (s : State) : Bool :=
  match s.hop with
  | .gateHold _ _ => true
  | .none => false
  | .waitVbl _ _ => false
  | .drain => false

/-- R157 sub-step 6; no earlier sub-step writes `hcount` or `T`. -/
def countTick (s : State) : State :=
  { s with hcount := if s.hcount.toNat + 1 = s.timing.period then 0 else s.hcount + 1 }

/-- Sub-steps 1 to 3 of R157. -/
def tickEvents (s : State) : State :=
  let s := if savDue s then savEvent s else s
  let s := thenDo s (fun s => if eavDue s then eavEvent s else s)
  thenDo s (fun s => if beatDue s then dmaBeat s else s)

/-- Sub-steps 4 to 6 of R157; `held` says whether `hop` was `GateHold` at the start of the step. -/
def tickHost (held : Bool) (s : State) : State :=
  let s := thenDo s (fun s => if held then gateCountdown s else s)
  let s := thenDo s progress
  thenDo s countTick

/-- `TICK` (R157). -/
def tickStep (s : State) : State :=
  if s.faulted || !s.timRun then s else tickHost (gateHeld s) (tickEvents s)

/-- The meaning of `TICK`. -/
def execTick (s : State) : Host.Outcome State Fault Refusal := .next (tickStep s)

end Sys2Proof.Machine
end

