-- ==== Sys2Proof/Machine/Dispatch.lean ====
section
/-! DEFINITION. One arm per operation of the opcode table. -/

namespace Sys2Proof.Machine

def exec (i : Instr) (s : State) : Host.Outcome State Fault Refusal :=
  match i with
  | .new => Sys2Proof.Machine.execNew s
  | .cfgTiming => Sys2Proof.Machine.execCfgTiming s
  | .stopSync => Sys2Proof.Machine.execStopSync s
  | .rastOpen => Sys2Proof.Machine.execRastOpen s
  | .bandsOpen n => Sys2Proof.Machine.execBandsOpen n s
  | .rastClose => Sys2Proof.Machine.execRastClose s
  | .syncVblank => Sys2Proof.Machine.execSyncVblank s
  | .videoOn => Sys2Proof.Machine.execVideoOn s
  | .videoOff => Sys2Proof.Machine.execVideoOff s
  | .rastDone => Sys2Proof.Machine.execRastDone s
  | .rastFail => Sys2Proof.Machine.execRastFail s
  | .tick => Sys2Proof.Machine.execTick s
  | .sav => Sys2Proof.Machine.execSav s
  | .eav => Sys2Proof.Machine.execEav s
  | .rast r k => Sys2Proof.Machine.execRast r k s
  | .dmabeat => Sys2Proof.Machine.execDmabeat s
  | .rd offset width => Sys2Proof.Machine.execRd offset width s
  | .wr offset width data => Sys2Proof.Machine.execWr offset width data s

end Sys2Proof.Machine
end

