-- ==== Sys2Proof/Machine/Step.lean ====
section
/-! DEFINITION. One step of the whole machine (R8). -/

namespace Sys2Proof.Machine

/-- One step: the next one asked for is taken off the list and performed, an operation of the table by `exec`, the
reset input by `resetStep`. -/
def step (s : State) : Host.Outcome State Fault Refusal :=
  match decodeInput (nextInput s) with
  | some i => exec i (takeInput s)
  | none => .next (resetStep (takeInput s))

/-- `s` with a write of the table word `w` to `CMD` as the step that happens next (log entry 1). -/
def State.withFetchWord (s : State) (nbits w : Nat) : State := placeWord s nbits w

end Sys2Proof.Machine
end

