-- ==== Sys2Proof/Safety.lean ====
section
/-! DEFINITION. What a good state of VTC is: the invariants of R57, with the facts that make them hold from step to step,
and the legality tables that the statements are written against. -/

namespace Sys2Proof.Safety

open Sys2Proof.Machine

/-- `in_vblank` (R14). -/
def inVblank (s : State) : Prop := s.timing.visible s.vline = false

/-- The invariants of R57 that hold while `faulted = 0`. I1 holds by the type of `dstate`. The fields named for a clause
of R57 state it; the others are what an induction over steps needs beside them. -/
structure Running (s : State) : Prop where
  /-- Before `NEW` the driver state is Idle (R27). -/
  notInit : s.init = false → s.dstate = .idle
  /-- I2. -/
  started : s.dstate ≠ .idle → s.timRun = true ∧ s.evtMask = false ∧ s.timing.valid = true
  /-- I3. -/
  idle : s.dstate = .idle →
    s.timRun = false ∧ s.evtMask = true ∧ s.hop = .none ∧ s.rastBusy = false ∧ s.dmaActive = false
  /-- I4. -/
  position : s.timRun = true →
    s.hcount.toNat < s.timing.period ∧ s.vline.toNat < s.timing.vTotal.toNat
  /-- I5. -/
  shapes : ∀ b : Bool, (shapeOf s b).valid = true →
    (shapeOf s b).start.toNat ≤ (shapeOf s b).stop.toNat ∧ (shapeOf s b).stop.toNat ≤ s.params.bufBytes
  /-- I6. -/
  transfer : s.dmaActive = true →
    s.timing.visible s.vline = true ∧ s.dmaPtr.toNat + s.dmaRem.toNat ≤ s.params.bufBytes ∧ 1 ≤ s.dmaRem.toNat
  /-- I7. -/
  blanking : inVblank s → s.dmaActive = false ∧ s.videoOut = 0
  /-- I8. -/
  mutex : s.mtxOwner = .thread → inVblank s ∧ ∃ rem target, s.hop = .gateHold rem target
  /-- I9. -/
  liveScope : s.live = true → s.dstate = .rasterLoaded ∧ 1 ≤ s.bandN.toNat ∧
    ∀ i, i < s.bandN.toNat → tagLoaded s (bandSlotAt s i).toNat = true
  /-- I10. -/
  lineNumber : s.rastBusy = true →
    s.timing.visible s.vline = true ∧ s.rastLine.toNat = s.timing.rline s.vline
  /-- I11, also during a drain: the clauses B1, B2, B4, B5 and B6 of R292 for every descriptor, and B3 too but for the
  one empty band `0..0` that R252 lets `RAST_OPEN` publish under a descriptor with no visible line (log entry 10). -/
  bandList : s.dstate = .rasterLoaded → bandsCover s s.bandN.toNat = true ∧
    (bandsNonEmpty s s.bandN.toNat = true ∨ (s.timing.vVideo = 0 ∧ s.bandN = 1))
  /-- A rasterization runs only inside a scope (R256). -/
  busyScope : s.rastBusy = true → s.dstate = .rasterLoaded
  /-- A rasterization runs only from an `EAV` match to the next `SAV` match (R355). -/
  busyWindow : s.rastBusy = true → s.hcount.toNat ≤ s.timing.mSav ∨ s.timing.mEav < s.hcount.toNat
  /-- A wait that goes on has seen no frame boundary since its sample (R276). -/
  waitSample : ∀ sample next, s.hop = .waitVbl sample next → sample = s.vblCount
  /-- During a drain the slots are revoked and the last rasterization still runs (R253, R254). -/
  draining : s.hop = .drain →
    s.dstate = .rasterLoaded ∧ s.live = false ∧ s.rastBusy = true ∧ ∀ k, k < 16 → tagLoaded s k = false
  /-- Outside a drain every slot that a published band names is Loaded (R252, R291). -/
  published : s.dstate = .rasterLoaded → s.hop ≠ .drain → 1 ≤ s.bandN.toNat ∧
    ∀ i, i < s.bandN.toNat → tagLoaded s (bandSlotAt s i).toNat = true
  /-- A Loaded slot implies an open scope (R256). -/
  loadedScope : ∀ k, k < 16 → tagLoaded s k = true → s.dstate = .rasterLoaded
  /-- The frame boundary resets the band pointer and the repeat counter (R184). -/
  vblankPointers : s.timRun = true → inVblank s → s.bandPtr = 0 ∧ s.repeatCtr = 0
  /-- The band pointer is the band of the visible line (R293). -/
  bandPointer : s.live = true → s.timing.visible s.vline = true →
    s.bandPtr.toNat < s.bandN.toNat ∧
    (bandStart (bandRangeAt s s.bandPtr.toNat)).toNat ≤ s.timing.rline s.vline ∧
    s.timing.rline s.vline < (bandEnd (bandRangeAt s s.bandPtr.toNat)).toNat
  /-- A divisor that belongs to a committed shape is within its bounds (R192). -/
  shiftBounds : ∀ b : Bool, (shapeOf s b).valid = true →
    s.params.ovrMin ≤ s.shiftDiv.toNat ∧ s.shiftDiv.toNat ≤ s.params.ovrMax
  /-- So is the divisor of a transfer (R187). -/
  divBounds : s.dmaActive = true → s.params.ovrMin ≤ s.dmaDiv.toNat ∧ s.dmaDiv.toNat ≤ s.params.ovrMax
  /-- A transfer runs between the `SAV` and the `EAV` match, and its next beat has not been passed (R187). -/
  beatWindow : s.dmaActive = true →
    s.timing.mSav < s.hcount.toNat ∧ s.hcount.toNat ≤ s.timing.mEav ∧ s.hcount.toNat ≤ s.dmaNext
  /-- Byte `j` of a transfer is due at `M_PIX0 + j * dma_div` (R187), and the bytes moved are those of the scanout
  shape (R94). -/
  beatPlace : s.dmaActive = true →
    (shapeOf s (!s.work)).start.toNat ≤ s.dmaPtr.toNat ∧
    s.dmaPtr.toNat + s.dmaRem.toNat = (shapeOf s (!s.work)).stop.toNat ∧
    s.dmaNext = s.timing.mPix0 + (s.dmaPtr.toNat - (shapeOf s (!s.work)).start.toNat) * s.dmaDiv.toNat
  /-- A committed buffer that waits for its swap has a valid shape (R193). -/
  freshShape : s.fresh = true → (shapeOf s s.work).valid = true
  /-- A gate operation in its hold phase has the mutex (R238). -/
  gateMutex : ∀ rem target, s.hop = .gateHold rem target →
    s.mtxOwner = .thread ∧ 1 ≤ rem ∧ rem ≤ s.params.gateHold
  /-- The sync pins are driven while the timers run (R34). -/
  driven : s.timRun = true → s.pinsDriven = true

/-- The invariant of every step: legal parameters, the canonical memory, and R57 while not faulted. -/
structure Inv (s : State) : Prop where
  params : s.params.wf = true
  memory : Memory.wf s.mem
  running : s.faulted = false → Running s

/-- The table of R271, with `hop = None` as R277 adds. Rasterizer-class commands are legal while `rast_busy = 1`
(R125); what is no command is not in the table. -/
def legalHere (i : Instr) (s : State) : Prop :=
  match i with
  | .new => s.init = false ∧ s.hop = .none
  | .cfgTiming => s.init = true ∧ s.dstate = .idle ∧ s.hop = .none
  | .stopSync => s.init = true ∧ s.dstate = .syncGen ∧ s.hop = .none
  | .rastOpen => s.init = true ∧ s.dstate = .syncGen ∧ s.hop = .none
  | .bandsOpen _ => s.params.hasBands = true ∧ s.init = true ∧ s.dstate = .syncGen ∧ s.hop = .none
  | .rastClose => s.init = true ∧ s.dstate = .rasterLoaded ∧ s.hop = .none
  | .syncVblank => s.init = true ∧ (s.dstate = .syncGen ∨ s.dstate = .rasterLoaded) ∧ s.hop = .none
  | .videoOn => s.init = true ∧ (s.dstate = .syncGen ∨ s.dstate = .rasterLoaded) ∧ s.hop = .none
  | .videoOff => s.init = true ∧ (s.dstate = .syncGen ∨ s.dstate = .rasterLoaded) ∧ s.hop = .none
  | .rastDone => s.rastBusy = true
  | .rastFail => s.rastBusy = true
  | .tick => False
  | .sav => False
  | .eav => False
  | .rast _ _ => False
  | .dmabeat => False
  | .rd _ _ => False
  | .wr _ _ _ => False

/-- A word-aligned offset at which R52 has a register. -/
def mapped (off : Nat) : Prop :=
  off ≤ 0x040 ∨ (0x060 ≤ off ∧ off ≤ 0x078) ∨ (0x080 ≤ off ∧ off < 0x0C0) ∨ (0x100 ≤ off ∧ off < 0x180)

/-- An access that R86 and R81 allow, whatever the register's own access rule says. -/
def accessAllowed (p : Params) (offset : BitVec 13) (width : Width) : Prop :=
  (offset.toNat < 0x180 ∧ width = .word ∧ offset.toNat % 4 = 0 ∧ mapped offset.toNat) ∨
  (0x1000 ≤ offset.toNat ∧ (offset.toNat - 0x1000) % width.bytes = 0 ∧
    offset.toNat - 0x1000 + width.bytes ≤ p.bufBytes)

/-- An offset whose register R52 marks RO. -/
def readOnly (off : Nat) : Prop :=
  (0x004 ≤ off ∧ off ≤ 0x020) ∨ (0x02C ≤ off ∧ off ≤ 0x040)

/-- An illegal command word by R124, with the clause on `HAS_BANDS`. -/
def illegalWord (p : Params) (w : Word) : Prop :=
  let op := w.extractLsb' 24 8
  let arg := w.extractLsb' 0 24
  op ∉ [0x01#8, 0x02#8, 0x03#8, 0x04#8, 0x05#8, 0x06#8, 0x07#8, 0x08#8, 0x09#8, 0x10#8, 0x11#8] ∨
  (op = 0x05#8 ∧ p.hasBands = false) ∨
  (op = 0x05#8 ∧ arg.extractLsb' 8 16 ≠ 0#16) ∨
  (op ≠ 0x05#8 ∧ arg ≠ 0#24)

end Sys2Proof.Safety
end

