-- ==== Sys2Proof/Certificates/Slice0/Obligations.lean ====
section
/-! DEFINITION. The statements about VTC, each with the rules it formalises. -/

open Sys2Proof Sys2Proof.Machine Sys2Proof.Safety

/-! ### Encoding -/

/-- R122: the words that decode, and to which command each does. -/
def Obligations.CommandWordsDecodeByTheOpcodeMap : Prop :=
  ∀ (w : Word) (i : Instr), decodeCmd w = .ok i ↔
    (w = 0x01000000#32 ∧ i = .new) ∨ (w = 0x02000000#32 ∧ i = .cfgTiming) ∨
    (w = 0x03000000#32 ∧ i = .stopSync) ∨ (w = 0x04000000#32 ∧ i = .rastOpen) ∨
    (∃ n : BitVec 8, w = 0x050000#24 ++ n ∧ i = .bandsOpen n) ∨
    (w = 0x06000000#32 ∧ i = .rastClose) ∨ (w = 0x07000000#32 ∧ i = .syncVblank) ∨
    (w = 0x08000000#32 ∧ i = .videoOn) ∨ (w = 0x09000000#32 ∧ i = .videoOff) ∨
    (w = 0x10000000#32 ∧ i = .rastDone) ∨ (w = 0x11000000#32 ∧ i = .rastFail)

/-- Decoding the step that asks for a well-formed operation gives the operation back, and only the four events
that a `Tick` selects (R126) cannot be asked for. -/
def Obligations.DecodingAnEncodedOperationGivesItBack : Prop :=
  ∀ i : Instr, i.wellFormed = true →
    (∀ x, encode i = some x → decodeInput x = some i) ∧
    (encode i = none ↔ i = .sav ∨ i = .eav ∨ (∃ r k, i = .rast r k) ∨ i = .dmabeat)

/-- Words of section 2.1 of the test vectors (R121, R122). A sanity statement. -/
def Obligations.SampleCommandWordsDecode : Prop :=
  decodeCmd 0x02000000#32 = .ok .cfgTiming ∧ decodeCmd 0x05000002#32 = .ok (.bandsOpen 2) ∧
  decodeCmd 0x050000FF#32 = .ok (.bandsOpen 255) ∧ decodeCmd 0x10000000#32 = .ok .rastDone ∧
  decodeCmd 0x01000001#32 = .error (.reservedArgument 0x01 1) ∧
  decodeCmd 0x0A000000#32 = .error (.reservedOpcode 0x0A)

/-- R124: an illegal command word, the clause on `HAS_BANDS` included, raises fault 6 with the word. -/
def Obligations.IllegalCommandWordFaults : Prop :=
  ∀ (s : State) (w : Word), s.faulted = false → illegalWord s.params w →
    exec (.wr 0#13 .word w) s = .next (raiseFault .illegalOp w s)

/-- R129 and R131: a mnemonic stands for a write of its word to `CMD`. -/
def Obligations.WritingACommandWordIsTheCommand : Prop :=
  ∀ (s : State) (i : Instr) (w : Word), encodeCmd i = some w → exec (.wr 0#13 .word w) s = exec i s

/-! ### Steps and reset -/

/-- What a step does with the first thing asked for, and with nothing asked for. That an agent's steps stand in a list
of the state, and that the clock ticks when it is empty, is the model's choice (log entry 1). -/
def Obligations.StepRunsTheDecodedOperation : Prop :=
  (∀ (s : State) (x : Input) (rest : List Input) (i : Instr), s.sched = x :: rest → decodeInput x = some i →
    i.wellFormed = true → step s = exec i { s with sched := rest, stepNo := s.stepNo + 1 }) ∧
  (∀ s : State, s.sched = [] → step s = exec .tick { s with stepNo := s.stepNo + 1 }) ∧
  (∀ (s : State) (rest : List Input), s.sched = .reset :: rest →
    ∃ t, step s = .next t ∧ t.sched = rest ∧ t.stepNo = s.stepNo + 1 ∧ t.params = s.params)

/-- A word placed for the fetch is the operation that the next step runs (log entry 1). -/
def Obligations.PlacedWordRunsNext : Prop :=
  ∀ (s : State) (w : Nat) (i : Instr), decodeTableWord 32 w = some i →
    step (s.withFetchWord 32 w) = exec i { s with stepNo := s.stepNo + 1 }

/-- R58: every piece of state, and the pins, after a `Reset` step. The buffers are unspecified. -/
def Obligations.ResetStepGivesTheResetTable : Prop :=
  ∀ (s : State) (rest : List Input), s.sched = .reset :: rest → ∃ t, step s = .next t ∧
    (t.init = false ∧ t.dstate = .idle ∧ t.hop = .none ∧ t.result = 0) ∧
    (t.tdCtrl = 0 ∧ t.tdH0 = 0 ∧ t.tdH1 = 0 ∧ t.tdH2 = 0 ∧ t.tdV0 = 0 ∧ t.tdV1 = 0 ∧ t.tdV2 = 0) ∧
    t.timing = Timing.zero ∧
    (t.hcount = 0 ∧ t.vline = 0 ∧ t.timRun = false ∧ t.evtMask = true ∧ t.pinsDriven = false) ∧
    (t.vblCount = 0 ∧ t.vblFlag = false) ∧
    (t.work = false ∧ t.fresh = false ∧ t.repeatCtr = 0 ∧ t.live = false) ∧
    (∀ b : Bool, shapeOf t b = { start := 0, stop := 0, valid := false }) ∧
    (t.rastBusy = false ∧ t.rastLine = 0 ∧ t.rastSlot = 0 ∧ t.rastFn = 0) ∧
    (t.ctxRange = 0 ∧ t.ctxMode = 1) ∧
    (t.dmaActive = false ∧ t.dmaPtr = 0 ∧ t.dmaRem = 0 ∧ t.dmaDiv = 0 ∧ t.dmaNext = 0) ∧
    (t.shiftDiv = 0 ∧ t.videoOut = 0 ∧ t.videoEn = false) ∧
    (∀ i : Fin 16, t.slotFn[i] = 0 ∧ t.tags[i] = .empty ∧ t.bandRange[i] = 0 ∧ t.bandSlot[i] = 0) ∧
    (t.bandN = 0 ∧ t.bandPtr = 0 ∧ t.mtxOwner = .free) ∧
    (t.faulted = false ∧ t.fault = 0 ∧ t.faultInfo = 0) ∧
    (hsyncPin t = .z ∧ vsyncPin t = .z ∧ videoPins t = 0 ∧ rastIrqPin t = false ∧ vblEvtPin t = false ∧
      faultPin t = false) ∧
    statusWord t = 0x00000040#32

/-! ### Faults -/

/-- R303: fault entry, and that no later sub-step is performed. -/
def Obligations.FaultEntryLatchesAndBlanks : Prop :=
  ∀ (c : Cause) (info : Word) (s : State),
    raiseFault c info s =
      { s with fault := c.code, faultInfo := info, faulted := true, dmaActive := false, videoOut := 0x00#8 } ∧
    faultPin (raiseFault c info s) = true ∧ videoPins (raiseFault c info s) = 0x00#8 ∧
    ∀ later : State → State, thenDo (raiseFault c info s) later = raiseFault c info s

/-- The codes of R301. -/
def Obligations.FaultCodesAreThoseOfTheTable : Prop :=
  Cause.deadlineMiss.code = 1 ∧ Cause.cppRange.code = 2 ∧ Cause.threadMutex.code = 3 ∧
  Cause.isrMutex.code = 4 ∧ Cause.rasterizerFault.code = 5 ∧ Cause.illegalOp.code = 6 ∧
  Cause.vblankOverflow.code = 7 ∧ Cause.badCtx.code = 8

/-- R305 and R350: a faulted VTC is absorbing; a read still answers, and only `Reset` leaves. That a read answers
in the field `rdata` is the model's choice (log entry 5). -/
def Obligations.FaultedMachineIsAbsorbing : Prop :=
  ∀ s : State, s.faulted = true →
    (∀ i : Instr, (∀ o w, i ≠ .rd o w) → exec i s = .next s) ∧
    (∀ o w, ∃ v, exec (.rd o w) s = .next { s with rdata := v }) ∧
    (∀ x rest, s.sched = x :: rest → x ≠ .reset →
      ∃ v, step s = .next { s with rdata := v, sched := rest, stepNo := s.stepNo + 1 })

/-- R235: cause 4 is never raised, whatever the state. -/
def Obligations.NoOperationRaisesIsrMutex : Prop :=
  ∀ (i : Instr) (s t : State), exec i s = .next t → s.fault ≠ 4 → t.fault ≠ 4

/-- R301, R182 and R186: in a state that meets the invariant, the only deadline miss a step can raise is that of a
rasterization still running when `SAV` matches. -/
def Obligations.DeadlineMissIsALateRasterization : Prop :=
  ∀ s t : State, Inv s → step s = .next t → s.faulted = false → t.faulted = true →
    t.fault = Cause.deadlineMiss.code →
    s.rastBusy = true ∧ s.hcount.toNat = s.timing.mSav ∧ s.timing.visible s.vline = true ∧
    t.faultInfo = s.rastLine.setWidth 32

/-! ### Commands -/

/-- R271 and R272: the legality table, and what an illegal command does. -/
def Obligations.IllegalCommandFaultsWithItsWord : Prop :=
  ∀ (s : State) (i : Instr) (w : Word), s.faulted = false → encodeCmd i = some w → ¬ legalHere i s →
    exec i s = .next (raiseFault .illegalOp w s)

/-- R274. -/
def Obligations.NewCreatesTheDriver : Prop :=
  ∀ s : State, s.faulted = false →
    (s.init = false → s.hop = .none →
      exec .new s = .next { s with init := true, dstate := .idle, result := 0 }) ∧
    (s.init = true → exec .new s = .next (raiseFault .illegalOp 0x01000000#32 s))

/-- R123: where the fields of a staged descriptor stand in the seven `TD_*` words. -/
def Obligations.StagedDescriptorFields : Prop :=
  ∀ (s : State) (cpp : BitVec 8) (hpol vpol : Bool) (reserved : BitVec 22) (res2 res3 : Half)
    (hSync hBp hVideo hFp hTotal vSync vBp vVideo vFp vTotal : Half),
    stagedTiming { s with
        tdCtrl := reserved ++ BitVec.ofBool vpol ++ BitVec.ofBool hpol ++ cpp
        tdH0 := hBp ++ hSync, tdH1 := hFp ++ hVideo, tdH2 := res2 ++ hTotal
        tdV0 := vBp ++ vSync, tdV1 := vFp ++ vVideo, tdV2 := res3 ++ vTotal } =
      { cpp := cpp, hpol := hpol, vpol := vpol, hSync := hSync, hBp := hBp, hVideo := hVideo, hFp := hFp,
        hTotal := hTotal, vSync := vSync, vBp := vBp, vVideo := vVideo, vFp := vFp, vTotal := vTotal }

/-- R151: the validity clauses V1 to V5, and the states in which `CFG_TIMING` is legal. -/
def Obligations.CfgTimingValidityAndLegality : Prop :=
  (∀ d : Timing, d.valid = true ↔
    d.cpp ≠ 0 ∧
    (d.hBp ≠ 0 ∧ d.hFp ≠ 0 ∧ d.vBp ≠ 0 ∧ d.vFp ≠ 0) ∧
    d.cpp.toNat * d.hTotal.toNat ≤ 65535 ∧
    d.hTotal.toNat = d.hSync.toNat + d.hBp.toNat + d.hVideo.toNat + d.hFp.toNat ∧
    d.vTotal.toNat = d.vSync.toNat + d.vBp.toNat + d.vVideo.toNat + d.vFp.toNat) ∧
  (∀ s : State, s.faulted = false → ¬ (s.init = true ∧ s.dstate = .idle ∧ s.hop = .none) →
    exec .cfgTiming s = .next (raiseFault .illegalOp 0x02000000#32 s))

/-- R152. -/
def Obligations.CfgTimingStartsSync : Prop :=
  ∀ s : State, s.faulted = false →
    (¬ legalHere .cfgTiming s → exec .cfgTiming s = .next (raiseFault .illegalOp 0x02000000#32 s)) ∧
    (legalHere .cfgTiming s → (stagedTiming s).valid = true → exec .cfgTiming s = .next { s with
      timing := stagedTiming s
      hcount := 0, vline := 0
      shiftDiv := s.tdCtrl.extractLsb' 0 8
      work := false, fresh := false, repeatCtr := 0, live := false, bandPtr := 0
      ctx0 := { s.ctx0 with valid := false }, ctx1 := { s.ctx1 with valid := false }
      rastBusy := false, dmaActive := false, videoOut := 0x00#8
      mtxOwner := .free
      pinsDriven := true, timRun := true
      evtMask := false
      dstate := .syncGen, result := 0 })

/-- R153. -/
def Obligations.CfgTimingRefusesABadDescriptor : Prop :=
  ∀ s : State, s.faulted = false → legalHere .cfgTiming s →
    (stagedTiming s).valid = false → exec .cfgTiming s = .next { s with result := 1 }

/-- R156. -/
def Obligations.StopSyncStopsTheTimers : Prop :=
  ∀ s : State, s.faulted = false →
    (legalHere .stopSync s → exec .stopSync s = .next { s with
      evtMask := true, timRun := false, dmaActive := false, videoOut := 0x00#8, dstate := .idle, result := 0 }) ∧
    (¬ legalHere .stopSync s →
      exec .stopSync s = .next (raiseFault .illegalOp 0x03000000#32 s))

/-- R252. -/
def Obligations.RastOpenPublishesOneBand : Prop :=
  ∀ s : State, s.faulted = false →
    (¬ legalHere .rastOpen s → exec .rastOpen s = .next (raiseFault .illegalOp 0x04000000#32 s)) ∧
    (legalHere .rastOpen s → exec .rastOpen s = .next { s with
      bandRange := s.bandRange.set 0 (s.timing.vVideo ++ 0#16)
      bandSlot := s.bandSlot.set 0 0
      bandN := 1
      tags := s.tags.set 0 .loaded
      dstate := .rasterLoaded, result := 0 })

/-- R291: a well-formed list is published in one step, any other is refused. -/
def Obligations.BandsOpenPublishesOrRefuses : Prop :=
  ∀ (s : State) (n : BitVec 8), s.faulted = false →
    (¬ legalHere (.bandsOpen n) s →
      exec (.bandsOpen n) s = .next (raiseFault .illegalOp (0x050000#24 ++ n) s)) ∧
    (legalHere (.bandsOpen n) s → bandsWellFormed s n.toNat = true → ∃ tags : Vector SlotTag 16,
      exec (.bandsOpen n) s = .next { s with bandN := n, tags := tags, dstate := .rasterLoaded, result := 0 } ∧
      ∀ k : Fin 16, tags[k] = .loaded ↔
        s.tags[k] = .loaded ∨ ∃ i, i < n.toNat ∧ (bandSlotAt s i).toNat = k.val) ∧
    (legalHere (.bandsOpen n) s → bandsWellFormed s n.toNat = false → exec (.bandsOpen n) s = .next { s with result := 2 })

/-- R292: the clauses B1 to B6, and that a well-formed list stays so while `dstate = RasterLoaded`. -/
def Obligations.BandListWellFormedness : Prop :=
  (∀ (s : State) (n : Nat), bandsWellFormed s n = true ↔
    (1 ≤ n ∧ n ≤ 16) ∧
    ((bandRangeAt s 0).extractLsb' 0 16).toNat = 0 ∧
    (∀ i, i < n →
      ((bandRangeAt s i).extractLsb' 0 16).toNat < ((bandRangeAt s i).extractLsb' 16 16).toNat) ∧
    (∀ i, i < n - 1 →
      ((bandRangeAt s i).extractLsb' 16 16).toNat = ((bandRangeAt s (i + 1)).extractLsb' 0 16).toNat) ∧
    ((bandRangeAt s (n - 1)).extractLsb' 16 16).toNat = s.timing.vVideo.toNat ∧
    (∀ i, i < n → (bandSlotAt s i).toNat < 16)) ∧
  (∀ (i : Instr) (s t : State), exec i s = .next t → s.dstate = .rasterLoaded → t.dstate = .rasterLoaded →
    bandsWellFormed s s.bandN.toNat = true → bandsWellFormed t t.bandN.toNat = true)

/-- R253 and R254: the slots are revoked in one step; the scope ends at once when no rasterization is in flight. -/
def Obligations.RastCloseRevokesAndDrains : Prop :=
  ∀ s : State, s.faulted = false → legalHere .rastClose s →
    (s.rastBusy = false → exec .rastClose s = .next { s with
      tags := Vector.replicate 16 .empty, live := false, dstate := .syncGen, hop := .none, result := 0 }) ∧
    (s.rastBusy = true → exec .rastClose s = .next { s with
      tags := Vector.replicate 16 .empty, live := false, hop := .drain })

/-- R254 and R255: a scope ends only when no rasterization is in flight. -/
def Obligations.ScopeEndsOnlyAfterTheRasterizer : Prop :=
  ∀ (i : Instr) (s t : State), exec i s = .next t → s.init = true → s.dstate = .rasterLoaded →
    t.dstate ≠ .rasterLoaded → t.dstate = .syncGen ∧ t.rastBusy = false ∧ t.hop = .none ∧ t.result = 0

/-- R275, R236 and R237: the three waits sample the vblank counter. -/
def Obligations.WaitingCommandsSampleTheCounter : Prop :=
  ∀ s : State, s.faulted = false →
    (legalHere .syncVblank s → exec .syncVblank s = .next { s with hop := .waitVbl s.vblCount .done }) ∧
    (legalHere .videoOn s → exec .videoOn s = .next { s with hop := .waitVbl s.vblCount .gateOn }) ∧
    (legalHere .videoOff s → exec .videoOff s = .next { s with hop := .waitVbl s.vblCount .gateOff })

/-- R276: the cases of `progress()`. -/
def Obligations.ProgressCompletesHostOperations : Prop :=
  ∀ s : State,
    (s.hop = .none → progress s = s) ∧
    (s.hop = .drain → s.rastBusy = true → progress s = s) ∧
    (s.hop = .drain → s.rastBusy = false →
      progress s = { s with dstate := .syncGen, hop := .none, result := 0 }) ∧
    (∀ sample next, s.hop = .waitVbl sample next → s.vblCount.toNat ≤ sample.toNat → progress s = s) ∧
    (∀ sample, s.hop = .waitVbl sample .done → sample.toNat < s.vblCount.toNat →
      progress s = { s with vblFlag := false, hop := .none, result := 0 }) ∧
    (∀ sample, s.hop = .waitVbl sample .gateOn → sample.toNat < s.vblCount.toNat →
      progress s = { s with
        vblFlag := false, mtxOwner := .thread, hop := .gateHold s.params.gateHold true }) ∧
    (∀ sample, s.hop = .waitVbl sample .gateOff → sample.toNat < s.vblCount.toNat →
      progress s = { s with
        vblFlag := false, mtxOwner := .thread, hop := .gateHold s.params.gateHold false }) ∧
    (∀ rem target, s.hop = .gateHold rem target → progress s = s)

/-- R193. -/
def Obligations.RastDoneCommitsTheContext : Prop :=
  ∀ s : State, s.faulted = false →
    let start := s.ctxRange.extractLsb' 0 16
    let stop := s.ctxRange.extractLsb' 16 16
    let rep := s.ctxMode.extractLsb' 0 16
    let eff := if s.ctxMode.getLsbD 16 then s.ctxMode.extractLsb' 24 8 else s.timing.cpp
    let bad := rep = 0 ∨ stop.toNat < start.toNat ∨ s.params.bufBytes < stop.toNat
    let far := eff.toNat < s.params.ovrMin ∨ s.params.ovrMax < eff.toNat
    let shape : Shape := { start := start, stop := stop, valid := true }
    (s.rastBusy = false → exec .rastDone s = .next (raiseFault .illegalOp 0x10000000#32 s)) ∧
    (s.rastBusy = true → bad →
      exec .rastDone s = .next (raiseFault .badCtx (s.rastLine.setWidth 32) s)) ∧
    (s.rastBusy = true → ¬ bad → far →
      exec .rastDone s = .next (raiseFault .cppRange (eff.setWidth 32) s)) ∧
    (s.rastBusy = true → ¬ bad → ¬ far →
      exec .rastDone s = .next (progress { s with
        ctx0 := if s.work then s.ctx0 else shape
        ctx1 := if s.work then shape else s.ctx1
        repeatCtr := rep
        fresh := true
        shiftDiv := eff
        rastBusy := false }))

/-- R194. -/
def Obligations.RastFailIsAFault : Prop :=
  ∀ s : State, s.faulted = false →
    (s.rastBusy = true → exec .rastFail s = .next { s with
      fault := 5, faultInfo := s.rastLine.setWidth 32, faulted := true, dmaActive := false, videoOut := 0x00#8 }) ∧
    (s.rastBusy = false → exec .rastFail s = .next (raiseFault .illegalOp 0x11000000#32 s))

/-! ### Events -/

/-- The checks and the effect of R182. That `exec` performs the event whatever its condition of R126 is the model's
reading (log entry 8). -/
def Obligations.SavSwapsAndArmsTheDma : Prop :=
  ∀ s : State, s.faulted = false →
    let work := if s.fresh then !s.work else s.work
    let c := if work then s.ctx0 else s.ctx1
    (s.mtxOwner = .thread →
      exec .sav s = .next (raiseFault .threadMutex (s.vline.setWidth 32) s)) ∧
    (s.mtxOwner = .free → s.rastBusy = true →
      exec .sav s = .next (raiseFault .deadlineMiss (s.rastLine.setWidth 32) s)) ∧
    (s.mtxOwner = .free → s.rastBusy = false → s.dmaActive = true →
      exec .sav s = .next (raiseFault .deadlineMiss 0xFFFFFFFF#32 s)) ∧
    (s.mtxOwner = .free → s.rastBusy = false → s.dmaActive = false →
      c.valid = true → c.start.toNat < c.stop.toNat →
      exec .sav s = .next { s with
        work := work, fresh := false
        dmaActive := true
        dmaPtr := c.start
        dmaRem := c.stop - c.start
        dmaDiv := s.shiftDiv
        dmaNext := s.timing.cpp.toNat * (s.timing.hSync.toNat + s.timing.hBp.toNat) }) ∧
    (s.mtxOwner = .free → s.rastBusy = false → s.dmaActive = false →
      ¬ (c.valid = true ∧ c.start.toNat < c.stop.toNat) →
      exec .sav s = .next { s with work := work, fresh := false })

/-- R183 and R184: an `EAV` that moves to a blanking line, the frame boundary among them. That `exec` performs the
event whatever its condition of R126 is the model's reading (log entry 8). -/
def Obligations.EavIntoBlanking : Prop :=
  ∀ s : State, s.faulted = false →
    let nv : Half := if s.vline.toNat + 1 = s.timing.vTotal.toNat then 0 else s.vline + 1
    s.timing.visible nv = false →
    (nv ≠ 0 → exec .eav s = .next { s with dmaActive := false, videoOut := 0x00#8, vline := nv }) ∧
    (nv = 0 → s.vblCount ≠ 0xFFFFFFFF#32 → exec .eav s = .next { s with
      dmaActive := false, videoOut := 0x00#8, vline := 0
      vblCount := s.vblCount + 1, vblFlag := true, bandPtr := 0, repeatCtr := 0 }) ∧
    (nv = 0 → s.vblCount = 0xFFFFFFFF#32 →
      exec .eav s = .next (raiseFault .vblankOverflow 0
        { s with dmaActive := false, videoOut := 0x00#8, vline := 0 }))

/-- R183 step 2 and R234: the host still holds the mutex when vblank ends. That `exec` performs the event whatever its
condition of R126 is the model's reading (log entry 8). -/
def Obligations.EavFindsTheMutexHeld : Prop :=
  ∀ s : State, s.faulted = false → s.mtxOwner = .thread →
    let nv : Half := if s.vline.toNat + 1 = s.timing.vTotal.toNat then 0 else s.vline + 1
    s.timing.visible nv = true →
    exec .eav s = .next (raiseFault .threadMutex (nv.setWidth 32) s)

/-- R185 with R183: an `EAV` that moves to a visible line. That `exec` performs the event whatever its condition of
R126 is the model's reading (log entry 8); where the band pointer or the slot index is past the sixteen registers, what
is read there is a free value (log entry 6). -/
def Obligations.EavIntoAVisibleLine : Prop :=
  ∀ s : State, s.faulted = false → s.mtxOwner = .free → s.vline.toNat + 1 ≠ s.timing.vTotal.toNat →
    let nv : Half := s.vline + 1
    nv ≠ 0 → s.timing.visible nv = true →
    let r := nv.toNat - (s.timing.vFp.toNat + s.timing.vSync.toNat + s.timing.vBp.toNat)
    let live := s.live = true ∨
      (r = 0 ∧ s.dstate = .rasterLoaded ∧ 1 ≤ s.bandN.toNat ∧ tagLoaded s (bandSlotAt s 0).toNat = true)
    let boundary := s.bandPtr.toNat + 1 < s.bandN.toNat ∧
      r = ((bandRangeAt s s.bandPtr.toNat).extractLsb' 16 16).toNat
    ∀ (ptr : BitVec 8) (rep : Half),
      ((boundary ∧ ptr = s.bandPtr + 1 ∧ rep = 0) ∨
        (¬ boundary ∧ ptr = s.bandPtr ∧ rep = (if s.repeatCtr = 0 then 0 else s.repeatCtr - 1))) →
      let k := bandSlotAt s ptr.toNat
      (¬ live → exec .eav s = .next { s with
        dmaActive := false, videoOut := 0x00#8, vline := nv
        ctx0 := { s.ctx0 with valid := false }, ctx1 := { s.ctx1 with valid := false }
        fresh := false, repeatCtr := 0 }) ∧
      (live → rep ≠ 0 → exec .eav s = .next { s with
        dmaActive := false, videoOut := 0x00#8, vline := nv, live := true, bandPtr := ptr, repeatCtr := rep }) ∧
      (live → rep = 0 → s.rastBusy = false → exec .eav s = .next { s with
        dmaActive := false, videoOut := 0x00#8, vline := nv, live := true, bandPtr := ptr, repeatCtr := 0
        rastBusy := true, rastLine := BitVec.ofNat 16 r, rastSlot := k, rastFn := slotFnAt s k.toNat
        ctxRange := 0x00000000#32, ctxMode := 0x00000001#32 }) ∧
      (live → rep = 0 → s.rastBusy = true →
        exec .eav s = .next (raiseFault .deadlineMiss (s.rastLine.setWidth 32) { s with
          dmaActive := false, videoOut := 0x00#8, vline := nv, live := true, bandPtr := ptr, repeatCtr := 0 }))

/-- R186. For a slot that does not exist the handle is the model's free value (log entry 6), and that `exec` performs
the event whatever its condition of R126 is the model's reading (log entry 8). -/
def Obligations.RastHandsOverAFreshContext : Prop :=
  ∀ (s : State) (r : Half) (k : BitVec 8), s.faulted = false →
    (s.rastBusy = false → exec (.rast r k) s = .next { s with
      rastBusy := true, rastLine := r, rastSlot := k, rastFn := slotFnAt s k.toNat
      ctxRange := 0x00000000#32, ctxMode := 0x00000001#32 }) ∧
    (∀ h : k.toNat < 16, slotFnAt s k.toNat = s.slotFn[k.toNat]) ∧
    (s.rastBusy = true →
      exec (.rast r k) s = .next (raiseFault .deadlineMiss (s.rastLine.setWidth 32) s))

/-- R187. That `exec` performs the event whatever its condition of R126 is the model's reading (log entry 8); a byte that
nothing has written is a free value (log entry 3). -/
def Obligations.DmaBeatDrivesOneByte : Prop :=
  ∀ s : State, s.faulted = false →
    exec .dmabeat s = .next { s with
      videoOut := bufByte s (!s.work) s.dmaPtr.toNat
      dmaPtr := s.dmaPtr + 1
      dmaRem := s.dmaRem - 1
      dmaNext := s.dmaNext + s.dmaDiv.toNat
      dmaActive := if s.dmaRem - 1 = 0 then false else s.dmaActive }

/-! ### The tick -/

/-- R157: a stopped or faulted VTC; and a tick in which no event falls and no gate hold counts, which performs
`progress()` and counts. It only counts where the host operation has to wait on: none is in progress, a wait has seen no
frame boundary since its sample, or a drain still finds a rasterization in flight (R276). -/
def Obligations.TickWithoutEventCounts : Prop :=
  ∀ s : State,
    (s.faulted = true ∨ s.timRun = false → exec .tick s = .next s) ∧
    (s.faulted = false → s.timRun = true →
      ¬ (s.evtMask = false ∧ s.hcount.toNat = s.timing.mSav ∧ s.timing.visible s.vline = true) →
      ¬ (s.evtMask = false ∧ s.hcount.toNat = s.timing.mEav) →
      ¬ (s.dmaActive = true ∧ s.hcount.toNat = s.dmaNext) →
      ((∀ rem target, s.hop ≠ .gateHold rem target) → exec .tick s = .next (countTick (progress s))) ∧
      (s.hop = .none ∨ (∃ sample next, s.hop = .waitVbl sample next ∧ s.vblCount.toNat ≤ sample.toNat) ∨
          (s.hop = .drain ∧ s.rastBusy = true) →
        exec .tick s = .next { s with
          hcount := if s.hcount.toNat + 1 = s.timing.cpp.toNat * s.timing.hTotal.toNat then 0 else s.hcount + 1 }))

/-- R157 sub-step 1, and the sub-steps after it. -/
def Obligations.TickPerformsSav : Prop :=
  ∀ s : State, s.faulted = false → s.timRun = true → s.timing.valid = true → s.evtMask = false →
    s.hcount.toNat = s.timing.cpp.toNat * (s.timing.hSync.toNat + s.timing.hBp.toNat - 1) →
    s.timing.visible s.vline = true →
    ∃ u, exec .sav s = .next u ∧
      (u.faulted = true → exec .tick s = .next u) ∧
      (u.faulted = false →
        exec .tick s = .next (countTick (progress (if gateHeld s then gateCountdown u else u))))

/-- R157 sub-step 2, and the sub-steps after it: a beat due in the same tick is cancelled. -/
def Obligations.TickPerformsEav : Prop :=
  ∀ s : State, s.faulted = false → s.timRun = true → s.timing.valid = true → s.evtMask = false →
    s.hcount.toNat =
      s.timing.cpp.toNat * (s.timing.hSync.toNat + s.timing.hBp.toNat + s.timing.hVideo.toNat) →
    ∃ u, exec .eav s = .next u ∧
      (u.faulted = true → exec .tick s = .next u) ∧
      (u.faulted = false →
        exec .tick s = .next (countTick (progress (if gateHeld s then gateCountdown u else u))))

/-- R157 sub-step 3, and the sub-steps after it. -/
def Obligations.TickPerformsDmaBeat : Prop :=
  ∀ s : State, s.faulted = false → s.timRun = true → s.dmaActive = true → s.hcount.toNat = s.dmaNext →
    ¬ (s.evtMask = false ∧ s.hcount.toNat = s.timing.mSav ∧ s.timing.visible s.vline = true) →
    ¬ (s.evtMask = false ∧ s.hcount.toNat = s.timing.mEav) →
    ∃ u, exec .dmabeat s = .next u ∧ u.faulted = false ∧
      exec .tick s = .next (countTick (progress (if gateHeld s then gateCountdown u else u)))

/-- R275 and R276: a wait that was sampled before the frame boundary ends in the tick of the boundary. -/
def Obligations.WaitEndsAtTheFrameBoundary : Prop :=
  ∀ (s : State) (sample : Word), s.faulted = false → s.timRun = true → s.timing.valid = true →
    s.evtMask = false → s.hcount.toNat = s.timing.mEav → s.vline.toNat + 1 = s.timing.vTotal.toNat →
    s.vblCount ≠ 0xFFFFFFFF#32 → sample.toNat ≤ s.vblCount.toNat →
    let boundary : State := { s with
      dmaActive := false, videoOut := 0x00#8, vline := 0, vblCount := s.vblCount + 1, vblFlag := false
      bandPtr := 0, repeatCtr := 0
      hcount := if s.hcount.toNat + 1 = s.timing.period then 0 else s.hcount + 1 }
    (s.hop = .waitVbl sample .done →
      exec .tick s = .next { boundary with hop := .none, result := 0 }) ∧
    (s.hop = .waitVbl sample .gateOn →
      exec .tick s = .next { boundary with mtxOwner := .thread, hop := .gateHold s.params.gateHold true }) ∧
    (s.hop = .waitVbl sample .gateOff →
      exec .tick s = .next { boundary with mtxOwner := .thread, hop := .gateHold s.params.gateHold false })

/-- R238 phases 3 and 4, in a tick without an event. -/
def Obligations.GateHoldsThenReleases : Prop :=
  ∀ (s : State) (rem : Nat) (target : Bool), s.faulted = false → s.timRun = true →
    s.hop = .gateHold rem target → 1 ≤ rem →
    ¬ (s.evtMask = false ∧ s.hcount.toNat = s.timing.mSav ∧ s.timing.visible s.vline = true) →
    ¬ (s.evtMask = false ∧ s.hcount.toNat = s.timing.mEav) →
    ¬ (s.dmaActive = true ∧ s.hcount.toNat = s.dmaNext) →
    let hcount : Half := if s.hcount.toNat + 1 = s.timing.period then 0 else s.hcount + 1
    (rem = 1 → exec .tick s = .next { s with
      videoEn := target, mtxOwner := .free, hop := .none, result := 0, hcount := hcount }) ∧
    (rem ≠ 1 → exec .tick s = .next { s with hop := .gateHold (rem - 1) target, hcount := hcount })

/-! ### The bus -/

/-- R52 and R90: what each register reads as. A read leaves its value in `rdata` (log entry 5) and changes nothing
else (R88). -/
def Obligations.RegistersReadAsMapped : Prop :=
  ∀ s : State,
    let reads (offset : BitVec 13) (v : Word) : Prop := exec (.rd offset .word) s = .next { s with rdata := v }
    reads 0x000 0 ∧ reads 0x004 (statusWord s) ∧ reads 0x008 s.result ∧ reads 0x00C s.fault ∧
    reads 0x010 s.faultInfo ∧ reads 0x014 s.vblCount ∧ reads 0x018 (s.vline ++ s.hcount) ∧
    reads 0x01C (0#8 ++ s.rastSlot ++ s.rastLine) ∧ reads 0x020 s.rastFn ∧
    reads 0x024 s.ctxRange ∧ reads 0x028 s.ctxMode ∧ reads 0x02C (s.shiftDiv.setWidth 32) ∧
    (∃ v, reads 0x030 v ∧ (∀ i : Fin 16, v.getLsbD i = (s.tags[i] == .loaded)) ∧
      ∀ i, 16 ≤ i → v.getLsbD i = false) ∧
    reads 0x034 (s.repeatCtr.setWidth 32) ∧ reads 0x038 (0#16 ++ s.bandPtr ++ s.bandN) ∧
    reads 0x03C (s.ctx0.stop ++ s.ctx0.start) ∧ reads 0x040 (s.ctx1.stop ++ s.ctx1.start) ∧
    reads 0x060 s.tdCtrl ∧ reads 0x064 s.tdH0 ∧ reads 0x068 s.tdH1 ∧ reads 0x06C s.tdH2 ∧
    reads 0x070 s.tdV0 ∧ reads 0x074 s.tdV1 ∧ reads 0x078 s.tdV2 ∧
    ∀ i : Fin 16,
      reads (0x080 + 4 * BitVec.ofNat 13 i) s.slotFn[i] ∧
      reads (0x100 + 8 * BitVec.ofNat 13 i) s.bandRange[i] ∧
      reads (0x104 + 8 * BitVec.ofNat 13 i) s.bandSlot[i]

/-- R53: the bits of `STATUS`, and its value at reset. -/
def Obligations.StatusBits : Prop :=
  (∀ p : Params, statusWord (State.initial p) = 0x00000040#32) ∧
  ∀ s : State,
    let b (i : Nat) : Bool := (statusWord s).getLsbD i
    b 0 = s.init ∧
    (statusWord s).extractLsb' 1 2 = (match s.dstate with | .idle => 0 | .syncGen => 1 | .rasterLoaded => 2) ∧
    b 3 = !(s.hop == .none) ∧ b 4 = s.faulted ∧ b 5 = s.timRun ∧ b 6 = s.evtMask ∧
    b 7 = (s.timRun && decide (s.vline.toNat < s.timing.vFp.toNat + s.timing.vSync.toNat + s.timing.vBp.toNat)) ∧
    b 8 = s.vblFlag ∧ b 9 = s.videoEn ∧ b 10 = s.rastBusy ∧ b 11 = s.fresh ∧ b 12 = s.work ∧
    b 13 = s.dmaActive ∧ b 14 = s.live ∧ b 15 = (s.mtxOwner == .thread) ∧ b 16 = s.ctx0.valid ∧
    b 17 = s.ctx1.valid ∧ b 18 = s.pinsDriven ∧ (statusWord s).extractLsb' 19 13 = 0

/-- R92, R86, R90 and R305: an illegal access raises fault 6, or records nothing in a faulted VTC; an illegal read
returns 0 in both. That the 0 stands in `rdata` is the model's choice (log entry 5). -/
def Obligations.IllegalAccessFaults : Prop :=
  ∀ (s : State) (offset : BitVec 13) (width : Width),
    (s.faulted = false → ¬ accessAllowed s.params offset width →
      exec (.rd offset width) s =
        .next { raiseFault .illegalOp (0x80000000#32 ||| offset.setWidth 32) s with rdata := 0 } ∧
      ∀ v, exec (.wr offset width v) s =
        .next (raiseFault .illegalOp (0x80000000#32 ||| offset.setWidth 32) s)) ∧
    (s.faulted = true → ¬ accessAllowed s.params offset width →
      exec (.rd offset width) s = .next { s with rdata := 0 } ∧ ∀ v, exec (.wr offset width v) s = .next s) ∧
    (s.faulted = false → width = .word → offset.toNat % 4 = 0 → readOnly offset.toNat →
      ∀ v, exec (.wr offset width v) s =
        .next (raiseFault .illegalOp (0x80000000#32 ||| offset.setWidth 32) s))

/-- R91 and R358: the writable registers, each in its window of states. -/
def Obligations.RegisterWritesAndTheirWindows : Prop :=
  ∀ (s : State) (v : Word), s.faulted = false →
    let writes (offset : BitVec 13) (t : State) : Prop := exec (.wr offset .word v) s = .next (progress t)
    let faults (offset : BitVec 13) : Prop :=
      exec (.wr offset .word v) s = .next (raiseFault .illegalOp (0x80000000#32 ||| offset.setWidth 32) s)
    (writes 0x060 { s with tdCtrl := v } ∧ writes 0x064 { s with tdH0 := v } ∧
      writes 0x068 { s with tdH1 := v } ∧ writes 0x06C { s with tdH2 := v } ∧
      writes 0x070 { s with tdV0 := v } ∧ writes 0x074 { s with tdV1 := v } ∧
      writes 0x078 { s with tdV2 := v }) ∧
    (s.rastBusy = true → writes 0x024 { s with ctxRange := v } ∧ writes 0x028 { s with ctxMode := v }) ∧
    (s.rastBusy = false → faults 0x024 ∧ faults 0x028) ∧
    (s.dstate ≠ .rasterLoaded → ∀ i : Fin 16,
      writes (0x080 + 4 * BitVec.ofNat 13 i) { s with slotFn := s.slotFn.set i v } ∧
      writes (0x100 + 8 * BitVec.ofNat 13 i) { s with bandRange := s.bandRange.set i v } ∧
      writes (0x104 + 8 * BitVec.ofNat 13 i) { s with bandSlot := s.bandSlot.set i v }) ∧
    (s.dstate = .rasterLoaded → ∀ i : Fin 16,
      faults (0x080 + 4 * BitVec.ofNat 13 i) ∧ faults (0x100 + 8 * BitVec.ofNat 13 i) ∧
      faults (0x104 + 8 * BitVec.ofNat 13 i))

/-- R82, R85 and R91: a write to the WORK window stores its bytes, the low one first, in the working buffer, and
nothing else; outside the rasterizer's time it is a fault. -/
def Obligations.WindowWriteStoresItsBytes : Prop :=
  ∀ (s : State) (offset : BitVec 13) (width : Width) (v : Word), s.faulted = false →
    0x1000 ≤ offset.toNat → accessAllowed s.params offset width →
    (s.rastBusy = true → ∃ m : Memory,
      exec (.wr offset width v) s = .next (progress { s with mem := m }) ∧
      (∀ i, i < width.bytes →
        bufByte { s with mem := m } s.work (offset.toNat - 0x1000 + i) = v.extractLsb' (8 * i) 8) ∧
      ∀ a, ¬ (bufAddr s.work (offset.toNat - 0x1000) ≤ a ∧
          a < bufAddr s.work (offset.toNat - 0x1000) + width.bytes) →
        m.read? a = s.mem.read? a) ∧
    (s.rastBusy = false →
      exec (.wr offset width v) s = .next (raiseFault .illegalOp (0x80000000#32 ||| offset.setWidth 32) s))

/-- R90 and R85: a read of the WORK window answers the bytes of the working buffer, the low one first. -/
def Obligations.WindowReadReturnsItsBytes : Prop :=
  ∀ (s : State) (offset : BitVec 13) (width : Width), 0x1000 ≤ offset.toNat →
    accessAllowed s.params offset width →
    ∃ v, exec (.rd offset width) s = .next { s with rdata := v } ∧
      (∀ i, i < width.bytes → v.extractLsb' (8 * i) 8 = bufByte s s.work (offset.toNat - 0x1000 + i)) ∧
      v.toNat < 2 ^ (8 * width.bytes)

/-! ### The whole machine -/

/-- R57: every step keeps the invariant. Of I11 it leaves out clause B3 of R292 for the one empty band of a `RAST_OPEN`
under a descriptor with no visible line, which R252 allows: the model's reading (log entry 10). -/
def Obligations.EveryStepKeepsTheInvariant : Prop :=
  ∀ s t : State, Inv s → step s = .next t → Inv t

/-- R57 and R58: the state after reset meets the invariant, whatever legal parameters. -/
def Obligations.ResetMeetsTheInvariant : Prop :=
  (∀ p : Params, p.wf = true → Inv (State.initial p)) ∧ Inv State.reset

/-- Every operation keeps the canonical form of the memory. -/
def Obligations.EveryOperationKeepsMemoryCanonical : Prop :=
  ∀ (i : Instr) (s t : State), exec i s = .next t → Memory.wf s.mem → Memory.wf t.mem

/-- R26: the active descriptor is written only by a successful `CFG_TIMING`. -/
def Obligations.OnlyCfgTimingWritesTheDescriptor : Prop :=
  ∀ (i : Instr) (s t : State), exec i s = .next t → t.timing ≠ s.timing →
    (i = .cfgTiming ∨ i = .wr 0#13 .word 0x02000000#32) ∧
    s.dstate = .idle ∧ (stagedTiming s).valid = true ∧ t.timing = stagedTiming s

/-- R83 and R100: nothing writes the scanout buffer, and nothing but a window write during a rasterization writes the
working one. -/
def Obligations.BuffersKeepTheirRoles : Prop :=
  ∀ (i : Instr) (s t : State), exec i s = .next t →
    (∀ k, k < 65536 → bufByte t (!s.work) k = bufByte s (!s.work) k) ∧
    (∀ k, k < 65536 → bufByte t s.work k ≠ bufByte s s.work k →
      s.rastBusy = true ∧ ∃ offset width v, i = .wr offset width v ∧ 0x1000 ≤ offset.toNat ∧
        offset.toNat - 0x1000 ≤ k ∧ k < offset.toNat - 0x1000 + width.bytes)

/-- R38: the buffers change roles only in a `SAV` that finds a committed buffer, and `CFG_TIMING` sets them back. -/
def Obligations.RolesChangeOnlyAtSav : Prop :=
  ∀ (i : Instr) (s t : State), exec i s = .next t → t.work ≠ s.work →
    ((i = .sav ∨ (i = .tick ∧ savDue s = true)) ∧ s.fresh = true ∧ s.rastBusy = false) ∨
    ((i = .cfgTiming ∨ i = .wr 0#13 .word 0x02000000#32) ∧ t.work = false)

/-- R35: the vblank counter never decreases and never wraps; it counts one at a time, at the frame boundary. -/
def Obligations.VblankCounterIsMonotone : Prop :=
  ∀ (i : Instr) (s t : State), exec i s = .next t →
    t.vblCount = s.vblCount ∨
    ((i = .eav ∨ i = .tick) ∧ t.vline = 0 ∧ t.vblCount.toNat = s.vblCount.toNat + 1)

/-- R239: from a state that meets the invariant, the video gate moves only inside vblank, with the mutex held, no
transfer running and the port blanked. -/
def Obligations.VideoGateMovesOnlyInVblank : Prop :=
  ∀ s t : State, Inv s → step s = .next t → nextInput s ≠ .reset → t.videoEn ≠ s.videoEn →
    inVblank s ∧ inVblank t ∧ s.mtxOwner = .thread ∧ s.dmaActive = false ∧ s.videoOut = 0 ∧ t.videoOut = 0

/-- R293, R295 and R202: a dispatch names the visible line about to be shown, and the slot and closure of the one
band of the list that covers it. -/
def Obligations.DispatchSelectsTheCoveringBand : Prop :=
  ∀ s t : State, Inv s → step s = .next t → s.rastBusy = false → t.rastBusy = true →
    t.timing.visible t.vline = true ∧ t.rastLine.toNat = t.timing.rline t.vline ∧
    ∃ i, i < t.bandN.toNat ∧
      (bandStart (bandRangeAt t i)).toNat ≤ t.rastLine.toNat ∧
      t.rastLine.toNat < (bandEnd (bandRangeAt t i)).toNat ∧
      t.rastSlot = bandSlotAt t i ∧ t.rastFn = slotFnAt t (bandSlotAt t i).toNat

/-- R99 (a): what stands in `TD_*` does not reach the running sequencer. -/
def Obligations.StagingDoesNotReachTheSequencer : Prop :=
  ∀ (s t : State) (c h0 h1 h2 v0 v1 v2 : Word), exec .tick s = .next t →
    exec .tick { s with tdCtrl := c, tdH0 := h0, tdH1 := h1, tdH2 := h2, tdV0 := v0, tdV1 := v1, tdV2 := v2 } =
      .next { t with tdCtrl := c, tdH0 := h0, tdH1 := h1, tdH2 := h2, tdV0 := v0, tdV1 := v1, tdV2 := v2 }

/-- R32 and R33: the sync pins of a VTC that has not faulted. -/
def Obligations.SyncPinsFollowTheRaster : Prop :=
  ∀ s : State, s.faulted = false →
    (s.pinsDriven = false → hsyncPin s = .z ∧ vsyncPin s = .z) ∧
    (s.pinsDriven = true →
      hsyncPin s = Level.ofBool (if s.timRun = true ∧ s.hcount.toNat < s.timing.cpp.toNat * s.timing.hSync.toNat
        then s.timing.hpol else !s.timing.hpol) ∧
      vsyncPin s = Level.ofBool (if s.timRun = true ∧ s.timing.vFp.toNat ≤ s.vline.toNat ∧
          s.vline.toNat < s.timing.vFp.toNat + s.timing.vSync.toNat
        then s.timing.vpol else !s.timing.vpol))

/-- R24, R47 and R239: the port and the three lines toward the rasterizer and the host, in every state. -/
def Obligations.OutputPinsAreFunctionsOfTheState : Prop :=
  ∀ s : State,
    videoPins s = (if s.videoEn = true then s.videoOut else 0x00#8) ∧
    rastIrqPin s = s.rastBusy ∧ vblEvtPin s = s.vblFlag ∧ faultPin s = s.faulted

/-- R9 and R20: no operation changes a parameter, and `F_CLK`, `BUF_ALIGN`, `PIXEL_MAP` and the base address are read by
none. That the parameters stand in a field of the state is the model's choice (log entry 2). -/
def Obligations.ParametersStayAndFourReachNothing : Prop :=
  ∀ (i : Instr) (s t : State) (fClk bufAlign baseAddress : Nat) (pixelMap : PixelMap), exec i s = .next t →
    let other : Params := { s.params with
      fClk := fClk, bufAlign := bufAlign, pixelMap := pixelMap, baseAddress := baseAddress }
    t.params = s.params ∧ exec i { s with params := other } = .next { t with params := other }
end

