-- ==== Sys2Proof/Laws/State.lean ====
section
/-! SUPPORT. One lemma per field for each named update of the state, so that no proof unfolds a record update. -/

namespace Sys2Proof.Machine

@[simp] theorem raiseFault_tdCtrl (c : Cause) (info : Word) (s : State) : (raiseFault c info s).tdCtrl = s.tdCtrl := rfl
@[simp] theorem raiseFault_tdH0 (c : Cause) (info : Word) (s : State) : (raiseFault c info s).tdH0 = s.tdH0 := rfl
@[simp] theorem raiseFault_tdH1 (c : Cause) (info : Word) (s : State) : (raiseFault c info s).tdH1 = s.tdH1 := rfl
@[simp] theorem raiseFault_tdH2 (c : Cause) (info : Word) (s : State) : (raiseFault c info s).tdH2 = s.tdH2 := rfl
@[simp] theorem raiseFault_tdV0 (c : Cause) (info : Word) (s : State) : (raiseFault c info s).tdV0 = s.tdV0 := rfl
@[simp] theorem raiseFault_tdV1 (c : Cause) (info : Word) (s : State) : (raiseFault c info s).tdV1 = s.tdV1 := rfl
@[simp] theorem raiseFault_tdV2 (c : Cause) (info : Word) (s : State) : (raiseFault c info s).tdV2 = s.tdV2 := rfl
@[simp] theorem raiseFault_timing (c : Cause) (info : Word) (s : State) : (raiseFault c info s).timing = s.timing := rfl
@[simp] theorem raiseFault_init (c : Cause) (info : Word) (s : State) : (raiseFault c info s).init = s.init := rfl
@[simp] theorem raiseFault_dstate (c : Cause) (info : Word) (s : State) : (raiseFault c info s).dstate = s.dstate := rfl
@[simp] theorem raiseFault_hop (c : Cause) (info : Word) (s : State) : (raiseFault c info s).hop = s.hop := rfl
@[simp] theorem raiseFault_result (c : Cause) (info : Word) (s : State) : (raiseFault c info s).result = s.result := rfl
@[simp] theorem raiseFault_hcount (c : Cause) (info : Word) (s : State) : (raiseFault c info s).hcount = s.hcount := rfl
@[simp] theorem raiseFault_vline (c : Cause) (info : Word) (s : State) : (raiseFault c info s).vline = s.vline := rfl
@[simp] theorem raiseFault_timRun (c : Cause) (info : Word) (s : State) : (raiseFault c info s).timRun = s.timRun := rfl
@[simp] theorem raiseFault_evtMask (c : Cause) (info : Word) (s : State) : (raiseFault c info s).evtMask = s.evtMask := rfl
@[simp] theorem raiseFault_pinsDriven (c : Cause) (info : Word) (s : State) : (raiseFault c info s).pinsDriven = s.pinsDriven := rfl
@[simp] theorem raiseFault_vblCount (c : Cause) (info : Word) (s : State) : (raiseFault c info s).vblCount = s.vblCount := rfl
@[simp] theorem raiseFault_vblFlag (c : Cause) (info : Word) (s : State) : (raiseFault c info s).vblFlag = s.vblFlag := rfl
@[simp] theorem raiseFault_mem (c : Cause) (info : Word) (s : State) : (raiseFault c info s).mem = s.mem := rfl
@[simp] theorem raiseFault_work (c : Cause) (info : Word) (s : State) : (raiseFault c info s).work = s.work := rfl
@[simp] theorem raiseFault_ctx0 (c : Cause) (info : Word) (s : State) : (raiseFault c info s).ctx0 = s.ctx0 := rfl
@[simp] theorem raiseFault_ctx1 (c : Cause) (info : Word) (s : State) : (raiseFault c info s).ctx1 = s.ctx1 := rfl
@[simp] theorem raiseFault_fresh (c : Cause) (info : Word) (s : State) : (raiseFault c info s).fresh = s.fresh := rfl
@[simp] theorem raiseFault_repeatCtr (c : Cause) (info : Word) (s : State) : (raiseFault c info s).repeatCtr = s.repeatCtr := rfl
@[simp] theorem raiseFault_rastBusy (c : Cause) (info : Word) (s : State) : (raiseFault c info s).rastBusy = s.rastBusy := rfl
@[simp] theorem raiseFault_rastLine (c : Cause) (info : Word) (s : State) : (raiseFault c info s).rastLine = s.rastLine := rfl
@[simp] theorem raiseFault_rastSlot (c : Cause) (info : Word) (s : State) : (raiseFault c info s).rastSlot = s.rastSlot := rfl
@[simp] theorem raiseFault_rastFn (c : Cause) (info : Word) (s : State) : (raiseFault c info s).rastFn = s.rastFn := rfl
@[simp] theorem raiseFault_ctxRange (c : Cause) (info : Word) (s : State) : (raiseFault c info s).ctxRange = s.ctxRange := rfl
@[simp] theorem raiseFault_ctxMode (c : Cause) (info : Word) (s : State) : (raiseFault c info s).ctxMode = s.ctxMode := rfl
@[simp] theorem raiseFault_dmaActive (c : Cause) (info : Word) (s : State) : (raiseFault c info s).dmaActive = false := rfl
@[simp] theorem raiseFault_dmaPtr (c : Cause) (info : Word) (s : State) : (raiseFault c info s).dmaPtr = s.dmaPtr := rfl
@[simp] theorem raiseFault_dmaRem (c : Cause) (info : Word) (s : State) : (raiseFault c info s).dmaRem = s.dmaRem := rfl
@[simp] theorem raiseFault_dmaDiv (c : Cause) (info : Word) (s : State) : (raiseFault c info s).dmaDiv = s.dmaDiv := rfl
@[simp] theorem raiseFault_dmaNext (c : Cause) (info : Word) (s : State) : (raiseFault c info s).dmaNext = s.dmaNext := rfl
@[simp] theorem raiseFault_shiftDiv (c : Cause) (info : Word) (s : State) : (raiseFault c info s).shiftDiv = s.shiftDiv := rfl
@[simp] theorem raiseFault_live (c : Cause) (info : Word) (s : State) : (raiseFault c info s).live = s.live := rfl
@[simp] theorem raiseFault_videoOut (c : Cause) (info : Word) (s : State) : (raiseFault c info s).videoOut = 0 := rfl
@[simp] theorem raiseFault_videoEn (c : Cause) (info : Word) (s : State) : (raiseFault c info s).videoEn = s.videoEn := rfl
@[simp] theorem raiseFault_slotFn (c : Cause) (info : Word) (s : State) : (raiseFault c info s).slotFn = s.slotFn := rfl
@[simp] theorem raiseFault_tags (c : Cause) (info : Word) (s : State) : (raiseFault c info s).tags = s.tags := rfl
@[simp] theorem raiseFault_bandRange (c : Cause) (info : Word) (s : State) : (raiseFault c info s).bandRange = s.bandRange := rfl
@[simp] theorem raiseFault_bandSlot (c : Cause) (info : Word) (s : State) : (raiseFault c info s).bandSlot = s.bandSlot := rfl
@[simp] theorem raiseFault_bandN (c : Cause) (info : Word) (s : State) : (raiseFault c info s).bandN = s.bandN := rfl
@[simp] theorem raiseFault_bandPtr (c : Cause) (info : Word) (s : State) : (raiseFault c info s).bandPtr = s.bandPtr := rfl
@[simp] theorem raiseFault_mtxOwner (c : Cause) (info : Word) (s : State) : (raiseFault c info s).mtxOwner = s.mtxOwner := rfl
@[simp] theorem raiseFault_faulted (c : Cause) (info : Word) (s : State) : (raiseFault c info s).faulted = true := rfl
@[simp] theorem raiseFault_fault (c : Cause) (info : Word) (s : State) : (raiseFault c info s).fault = c.code := rfl
@[simp] theorem raiseFault_faultInfo (c : Cause) (info : Word) (s : State) : (raiseFault c info s).faultInfo = info := rfl
@[simp] theorem raiseFault_params (c : Cause) (info : Word) (s : State) : (raiseFault c info s).params = s.params := rfl
@[simp] theorem raiseFault_rdata (c : Cause) (info : Word) (s : State) : (raiseFault c info s).rdata = s.rdata := rfl
@[simp] theorem raiseFault_sched (c : Cause) (info : Word) (s : State) : (raiseFault c info s).sched = s.sched := rfl
@[simp] theorem raiseFault_stepNo (c : Cause) (info : Word) (s : State) : (raiseFault c info s).stepNo = s.stepNo := rfl
@[simp] theorem raiseFault_resets (c : Cause) (info : Word) (s : State) : (raiseFault c info s).resets = s.resets := rfl

@[simp] theorem refuse_tdCtrl (code : Word) (s : State) : (refuse code s).tdCtrl = s.tdCtrl := rfl
@[simp] theorem refuse_tdH0 (code : Word) (s : State) : (refuse code s).tdH0 = s.tdH0 := rfl
@[simp] theorem refuse_tdH1 (code : Word) (s : State) : (refuse code s).tdH1 = s.tdH1 := rfl
@[simp] theorem refuse_tdH2 (code : Word) (s : State) : (refuse code s).tdH2 = s.tdH2 := rfl
@[simp] theorem refuse_tdV0 (code : Word) (s : State) : (refuse code s).tdV0 = s.tdV0 := rfl
@[simp] theorem refuse_tdV1 (code : Word) (s : State) : (refuse code s).tdV1 = s.tdV1 := rfl
@[simp] theorem refuse_tdV2 (code : Word) (s : State) : (refuse code s).tdV2 = s.tdV2 := rfl
@[simp] theorem refuse_timing (code : Word) (s : State) : (refuse code s).timing = s.timing := rfl
@[simp] theorem refuse_init (code : Word) (s : State) : (refuse code s).init = s.init := rfl
@[simp] theorem refuse_dstate (code : Word) (s : State) : (refuse code s).dstate = s.dstate := rfl
@[simp] theorem refuse_hop (code : Word) (s : State) : (refuse code s).hop = s.hop := rfl
@[simp] theorem refuse_result (code : Word) (s : State) : (refuse code s).result = code := rfl
@[simp] theorem refuse_hcount (code : Word) (s : State) : (refuse code s).hcount = s.hcount := rfl
@[simp] theorem refuse_vline (code : Word) (s : State) : (refuse code s).vline = s.vline := rfl
@[simp] theorem refuse_timRun (code : Word) (s : State) : (refuse code s).timRun = s.timRun := rfl
@[simp] theorem refuse_evtMask (code : Word) (s : State) : (refuse code s).evtMask = s.evtMask := rfl
@[simp] theorem refuse_pinsDriven (code : Word) (s : State) : (refuse code s).pinsDriven = s.pinsDriven := rfl
@[simp] theorem refuse_vblCount (code : Word) (s : State) : (refuse code s).vblCount = s.vblCount := rfl
@[simp] theorem refuse_vblFlag (code : Word) (s : State) : (refuse code s).vblFlag = s.vblFlag := rfl
@[simp] theorem refuse_mem (code : Word) (s : State) : (refuse code s).mem = s.mem := rfl
@[simp] theorem refuse_work (code : Word) (s : State) : (refuse code s).work = s.work := rfl
@[simp] theorem refuse_ctx0 (code : Word) (s : State) : (refuse code s).ctx0 = s.ctx0 := rfl
@[simp] theorem refuse_ctx1 (code : Word) (s : State) : (refuse code s).ctx1 = s.ctx1 := rfl
@[simp] theorem refuse_fresh (code : Word) (s : State) : (refuse code s).fresh = s.fresh := rfl
@[simp] theorem refuse_repeatCtr (code : Word) (s : State) : (refuse code s).repeatCtr = s.repeatCtr := rfl
@[simp] theorem refuse_rastBusy (code : Word) (s : State) : (refuse code s).rastBusy = s.rastBusy := rfl
@[simp] theorem refuse_rastLine (code : Word) (s : State) : (refuse code s).rastLine = s.rastLine := rfl
@[simp] theorem refuse_rastSlot (code : Word) (s : State) : (refuse code s).rastSlot = s.rastSlot := rfl
@[simp] theorem refuse_rastFn (code : Word) (s : State) : (refuse code s).rastFn = s.rastFn := rfl
@[simp] theorem refuse_ctxRange (code : Word) (s : State) : (refuse code s).ctxRange = s.ctxRange := rfl
@[simp] theorem refuse_ctxMode (code : Word) (s : State) : (refuse code s).ctxMode = s.ctxMode := rfl
@[simp] theorem refuse_dmaActive (code : Word) (s : State) : (refuse code s).dmaActive = s.dmaActive := rfl
@[simp] theorem refuse_dmaPtr (code : Word) (s : State) : (refuse code s).dmaPtr = s.dmaPtr := rfl
@[simp] theorem refuse_dmaRem (code : Word) (s : State) : (refuse code s).dmaRem = s.dmaRem := rfl
@[simp] theorem refuse_dmaDiv (code : Word) (s : State) : (refuse code s).dmaDiv = s.dmaDiv := rfl
@[simp] theorem refuse_dmaNext (code : Word) (s : State) : (refuse code s).dmaNext = s.dmaNext := rfl
@[simp] theorem refuse_shiftDiv (code : Word) (s : State) : (refuse code s).shiftDiv = s.shiftDiv := rfl
@[simp] theorem refuse_live (code : Word) (s : State) : (refuse code s).live = s.live := rfl
@[simp] theorem refuse_videoOut (code : Word) (s : State) : (refuse code s).videoOut = s.videoOut := rfl
@[simp] theorem refuse_videoEn (code : Word) (s : State) : (refuse code s).videoEn = s.videoEn := rfl
@[simp] theorem refuse_slotFn (code : Word) (s : State) : (refuse code s).slotFn = s.slotFn := rfl
@[simp] theorem refuse_tags (code : Word) (s : State) : (refuse code s).tags = s.tags := rfl
@[simp] theorem refuse_bandRange (code : Word) (s : State) : (refuse code s).bandRange = s.bandRange := rfl
@[simp] theorem refuse_bandSlot (code : Word) (s : State) : (refuse code s).bandSlot = s.bandSlot := rfl
@[simp] theorem refuse_bandN (code : Word) (s : State) : (refuse code s).bandN = s.bandN := rfl
@[simp] theorem refuse_bandPtr (code : Word) (s : State) : (refuse code s).bandPtr = s.bandPtr := rfl
@[simp] theorem refuse_mtxOwner (code : Word) (s : State) : (refuse code s).mtxOwner = s.mtxOwner := rfl
@[simp] theorem refuse_faulted (code : Word) (s : State) : (refuse code s).faulted = s.faulted := rfl
@[simp] theorem refuse_fault (code : Word) (s : State) : (refuse code s).fault = s.fault := rfl
@[simp] theorem refuse_faultInfo (code : Word) (s : State) : (refuse code s).faultInfo = s.faultInfo := rfl
@[simp] theorem refuse_params (code : Word) (s : State) : (refuse code s).params = s.params := rfl
@[simp] theorem refuse_rdata (code : Word) (s : State) : (refuse code s).rdata = s.rdata := rfl
@[simp] theorem refuse_sched (code : Word) (s : State) : (refuse code s).sched = s.sched := rfl
@[simp] theorem refuse_stepNo (code : Word) (s : State) : (refuse code s).stepNo = s.stepNo := rfl
@[simp] theorem refuse_resets (code : Word) (s : State) : (refuse code s).resets = s.resets := rfl

@[simp] theorem completeHop_tdCtrl (s : State) : (completeHop s).tdCtrl = s.tdCtrl := rfl
@[simp] theorem completeHop_tdH0 (s : State) : (completeHop s).tdH0 = s.tdH0 := rfl
@[simp] theorem completeHop_tdH1 (s : State) : (completeHop s).tdH1 = s.tdH1 := rfl
@[simp] theorem completeHop_tdH2 (s : State) : (completeHop s).tdH2 = s.tdH2 := rfl
@[simp] theorem completeHop_tdV0 (s : State) : (completeHop s).tdV0 = s.tdV0 := rfl
@[simp] theorem completeHop_tdV1 (s : State) : (completeHop s).tdV1 = s.tdV1 := rfl
@[simp] theorem completeHop_tdV2 (s : State) : (completeHop s).tdV2 = s.tdV2 := rfl
@[simp] theorem completeHop_timing (s : State) : (completeHop s).timing = s.timing := rfl
@[simp] theorem completeHop_init (s : State) : (completeHop s).init = s.init := rfl
@[simp] theorem completeHop_dstate (s : State) : (completeHop s).dstate = s.dstate := rfl
@[simp] theorem completeHop_hop (s : State) : (completeHop s).hop = .none := rfl
@[simp] theorem completeHop_result (s : State) : (completeHop s).result = 0 := rfl
@[simp] theorem completeHop_hcount (s : State) : (completeHop s).hcount = s.hcount := rfl
@[simp] theorem completeHop_vline (s : State) : (completeHop s).vline = s.vline := rfl
@[simp] theorem completeHop_timRun (s : State) : (completeHop s).timRun = s.timRun := rfl
@[simp] theorem completeHop_evtMask (s : State) : (completeHop s).evtMask = s.evtMask := rfl
@[simp] theorem completeHop_pinsDriven (s : State) : (completeHop s).pinsDriven = s.pinsDriven := rfl
@[simp] theorem completeHop_vblCount (s : State) : (completeHop s).vblCount = s.vblCount := rfl
@[simp] theorem completeHop_vblFlag (s : State) : (completeHop s).vblFlag = s.vblFlag := rfl
@[simp] theorem completeHop_mem (s : State) : (completeHop s).mem = s.mem := rfl
@[simp] theorem completeHop_work (s : State) : (completeHop s).work = s.work := rfl
@[simp] theorem completeHop_ctx0 (s : State) : (completeHop s).ctx0 = s.ctx0 := rfl
@[simp] theorem completeHop_ctx1 (s : State) : (completeHop s).ctx1 = s.ctx1 := rfl
@[simp] theorem completeHop_fresh (s : State) : (completeHop s).fresh = s.fresh := rfl
@[simp] theorem completeHop_repeatCtr (s : State) : (completeHop s).repeatCtr = s.repeatCtr := rfl
@[simp] theorem completeHop_rastBusy (s : State) : (completeHop s).rastBusy = s.rastBusy := rfl
@[simp] theorem completeHop_rastLine (s : State) : (completeHop s).rastLine = s.rastLine := rfl
@[simp] theorem completeHop_rastSlot (s : State) : (completeHop s).rastSlot = s.rastSlot := rfl
@[simp] theorem completeHop_rastFn (s : State) : (completeHop s).rastFn = s.rastFn := rfl
@[simp] theorem completeHop_ctxRange (s : State) : (completeHop s).ctxRange = s.ctxRange := rfl
@[simp] theorem completeHop_ctxMode (s : State) : (completeHop s).ctxMode = s.ctxMode := rfl
@[simp] theorem completeHop_dmaActive (s : State) : (completeHop s).dmaActive = s.dmaActive := rfl
@[simp] theorem completeHop_dmaPtr (s : State) : (completeHop s).dmaPtr = s.dmaPtr := rfl
@[simp] theorem completeHop_dmaRem (s : State) : (completeHop s).dmaRem = s.dmaRem := rfl
@[simp] theorem completeHop_dmaDiv (s : State) : (completeHop s).dmaDiv = s.dmaDiv := rfl
@[simp] theorem completeHop_dmaNext (s : State) : (completeHop s).dmaNext = s.dmaNext := rfl
@[simp] theorem completeHop_shiftDiv (s : State) : (completeHop s).shiftDiv = s.shiftDiv := rfl
@[simp] theorem completeHop_live (s : State) : (completeHop s).live = s.live := rfl
@[simp] theorem completeHop_videoOut (s : State) : (completeHop s).videoOut = s.videoOut := rfl
@[simp] theorem completeHop_videoEn (s : State) : (completeHop s).videoEn = s.videoEn := rfl
@[simp] theorem completeHop_slotFn (s : State) : (completeHop s).slotFn = s.slotFn := rfl
@[simp] theorem completeHop_tags (s : State) : (completeHop s).tags = s.tags := rfl
@[simp] theorem completeHop_bandRange (s : State) : (completeHop s).bandRange = s.bandRange := rfl
@[simp] theorem completeHop_bandSlot (s : State) : (completeHop s).bandSlot = s.bandSlot := rfl
@[simp] theorem completeHop_bandN (s : State) : (completeHop s).bandN = s.bandN := rfl
@[simp] theorem completeHop_bandPtr (s : State) : (completeHop s).bandPtr = s.bandPtr := rfl
@[simp] theorem completeHop_mtxOwner (s : State) : (completeHop s).mtxOwner = s.mtxOwner := rfl
@[simp] theorem completeHop_faulted (s : State) : (completeHop s).faulted = s.faulted := rfl
@[simp] theorem completeHop_fault (s : State) : (completeHop s).fault = s.fault := rfl
@[simp] theorem completeHop_faultInfo (s : State) : (completeHop s).faultInfo = s.faultInfo := rfl
@[simp] theorem completeHop_params (s : State) : (completeHop s).params = s.params := rfl
@[simp] theorem completeHop_rdata (s : State) : (completeHop s).rdata = s.rdata := rfl
@[simp] theorem completeHop_sched (s : State) : (completeHop s).sched = s.sched := rfl
@[simp] theorem completeHop_stepNo (s : State) : (completeHop s).stepNo = s.stepNo := rfl
@[simp] theorem completeHop_resets (s : State) : (completeHop s).resets = s.resets := rfl

@[simp] theorem acquireGate_tdCtrl (target : Bool) (s : State) : (acquireGate target s).tdCtrl = s.tdCtrl := rfl
@[simp] theorem acquireGate_tdH0 (target : Bool) (s : State) : (acquireGate target s).tdH0 = s.tdH0 := rfl
@[simp] theorem acquireGate_tdH1 (target : Bool) (s : State) : (acquireGate target s).tdH1 = s.tdH1 := rfl
@[simp] theorem acquireGate_tdH2 (target : Bool) (s : State) : (acquireGate target s).tdH2 = s.tdH2 := rfl
@[simp] theorem acquireGate_tdV0 (target : Bool) (s : State) : (acquireGate target s).tdV0 = s.tdV0 := rfl
@[simp] theorem acquireGate_tdV1 (target : Bool) (s : State) : (acquireGate target s).tdV1 = s.tdV1 := rfl
@[simp] theorem acquireGate_tdV2 (target : Bool) (s : State) : (acquireGate target s).tdV2 = s.tdV2 := rfl
@[simp] theorem acquireGate_timing (target : Bool) (s : State) : (acquireGate target s).timing = s.timing := rfl
@[simp] theorem acquireGate_init (target : Bool) (s : State) : (acquireGate target s).init = s.init := rfl
@[simp] theorem acquireGate_dstate (target : Bool) (s : State) : (acquireGate target s).dstate = s.dstate := rfl
@[simp] theorem acquireGate_hop (target : Bool) (s : State) : (acquireGate target s).hop = .gateHold s.params.gateHold target := rfl
@[simp] theorem acquireGate_result (target : Bool) (s : State) : (acquireGate target s).result = s.result := rfl
@[simp] theorem acquireGate_hcount (target : Bool) (s : State) : (acquireGate target s).hcount = s.hcount := rfl
@[simp] theorem acquireGate_vline (target : Bool) (s : State) : (acquireGate target s).vline = s.vline := rfl
@[simp] theorem acquireGate_timRun (target : Bool) (s : State) : (acquireGate target s).timRun = s.timRun := rfl
@[simp] theorem acquireGate_evtMask (target : Bool) (s : State) : (acquireGate target s).evtMask = s.evtMask := rfl
@[simp] theorem acquireGate_pinsDriven (target : Bool) (s : State) : (acquireGate target s).pinsDriven = s.pinsDriven := rfl
@[simp] theorem acquireGate_vblCount (target : Bool) (s : State) : (acquireGate target s).vblCount = s.vblCount := rfl
@[simp] theorem acquireGate_vblFlag (target : Bool) (s : State) : (acquireGate target s).vblFlag = s.vblFlag := rfl
@[simp] theorem acquireGate_mem (target : Bool) (s : State) : (acquireGate target s).mem = s.mem := rfl
@[simp] theorem acquireGate_work (target : Bool) (s : State) : (acquireGate target s).work = s.work := rfl
@[simp] theorem acquireGate_ctx0 (target : Bool) (s : State) : (acquireGate target s).ctx0 = s.ctx0 := rfl
@[simp] theorem acquireGate_ctx1 (target : Bool) (s : State) : (acquireGate target s).ctx1 = s.ctx1 := rfl
@[simp] theorem acquireGate_fresh (target : Bool) (s : State) : (acquireGate target s).fresh = s.fresh := rfl
@[simp] theorem acquireGate_repeatCtr (target : Bool) (s : State) : (acquireGate target s).repeatCtr = s.repeatCtr := rfl
@[simp] theorem acquireGate_rastBusy (target : Bool) (s : State) : (acquireGate target s).rastBusy = s.rastBusy := rfl
@[simp] theorem acquireGate_rastLine (target : Bool) (s : State) : (acquireGate target s).rastLine = s.rastLine := rfl
@[simp] theorem acquireGate_rastSlot (target : Bool) (s : State) : (acquireGate target s).rastSlot = s.rastSlot := rfl
@[simp] theorem acquireGate_rastFn (target : Bool) (s : State) : (acquireGate target s).rastFn = s.rastFn := rfl
@[simp] theorem acquireGate_ctxRange (target : Bool) (s : State) : (acquireGate target s).ctxRange = s.ctxRange := rfl
@[simp] theorem acquireGate_ctxMode (target : Bool) (s : State) : (acquireGate target s).ctxMode = s.ctxMode := rfl
@[simp] theorem acquireGate_dmaActive (target : Bool) (s : State) : (acquireGate target s).dmaActive = s.dmaActive := rfl
@[simp] theorem acquireGate_dmaPtr (target : Bool) (s : State) : (acquireGate target s).dmaPtr = s.dmaPtr := rfl
@[simp] theorem acquireGate_dmaRem (target : Bool) (s : State) : (acquireGate target s).dmaRem = s.dmaRem := rfl
@[simp] theorem acquireGate_dmaDiv (target : Bool) (s : State) : (acquireGate target s).dmaDiv = s.dmaDiv := rfl
@[simp] theorem acquireGate_dmaNext (target : Bool) (s : State) : (acquireGate target s).dmaNext = s.dmaNext := rfl
@[simp] theorem acquireGate_shiftDiv (target : Bool) (s : State) : (acquireGate target s).shiftDiv = s.shiftDiv := rfl
@[simp] theorem acquireGate_live (target : Bool) (s : State) : (acquireGate target s).live = s.live := rfl
@[simp] theorem acquireGate_videoOut (target : Bool) (s : State) : (acquireGate target s).videoOut = s.videoOut := rfl
@[simp] theorem acquireGate_videoEn (target : Bool) (s : State) : (acquireGate target s).videoEn = s.videoEn := rfl
@[simp] theorem acquireGate_slotFn (target : Bool) (s : State) : (acquireGate target s).slotFn = s.slotFn := rfl
@[simp] theorem acquireGate_tags (target : Bool) (s : State) : (acquireGate target s).tags = s.tags := rfl
@[simp] theorem acquireGate_bandRange (target : Bool) (s : State) : (acquireGate target s).bandRange = s.bandRange := rfl
@[simp] theorem acquireGate_bandSlot (target : Bool) (s : State) : (acquireGate target s).bandSlot = s.bandSlot := rfl
@[simp] theorem acquireGate_bandN (target : Bool) (s : State) : (acquireGate target s).bandN = s.bandN := rfl
@[simp] theorem acquireGate_bandPtr (target : Bool) (s : State) : (acquireGate target s).bandPtr = s.bandPtr := rfl
@[simp] theorem acquireGate_mtxOwner (target : Bool) (s : State) : (acquireGate target s).mtxOwner = .thread := rfl
@[simp] theorem acquireGate_faulted (target : Bool) (s : State) : (acquireGate target s).faulted = s.faulted := rfl
@[simp] theorem acquireGate_fault (target : Bool) (s : State) : (acquireGate target s).fault = s.fault := rfl
@[simp] theorem acquireGate_faultInfo (target : Bool) (s : State) : (acquireGate target s).faultInfo = s.faultInfo := rfl
@[simp] theorem acquireGate_params (target : Bool) (s : State) : (acquireGate target s).params = s.params := rfl
@[simp] theorem acquireGate_rdata (target : Bool) (s : State) : (acquireGate target s).rdata = s.rdata := rfl
@[simp] theorem acquireGate_sched (target : Bool) (s : State) : (acquireGate target s).sched = s.sched := rfl
@[simp] theorem acquireGate_stepNo (target : Bool) (s : State) : (acquireGate target s).stepNo = s.stepNo := rfl
@[simp] theorem acquireGate_resets (target : Bool) (s : State) : (acquireGate target s).resets = s.resets := rfl

@[simp] theorem storeBuf_tdCtrl (b : Bool) (k n : Nat) (v : Word) (s : State) : (storeBuf b k n v s).tdCtrl = s.tdCtrl := rfl
@[simp] theorem storeBuf_tdH0 (b : Bool) (k n : Nat) (v : Word) (s : State) : (storeBuf b k n v s).tdH0 = s.tdH0 := rfl
@[simp] theorem storeBuf_tdH1 (b : Bool) (k n : Nat) (v : Word) (s : State) : (storeBuf b k n v s).tdH1 = s.tdH1 := rfl
@[simp] theorem storeBuf_tdH2 (b : Bool) (k n : Nat) (v : Word) (s : State) : (storeBuf b k n v s).tdH2 = s.tdH2 := rfl
@[simp] theorem storeBuf_tdV0 (b : Bool) (k n : Nat) (v : Word) (s : State) : (storeBuf b k n v s).tdV0 = s.tdV0 := rfl
@[simp] theorem storeBuf_tdV1 (b : Bool) (k n : Nat) (v : Word) (s : State) : (storeBuf b k n v s).tdV1 = s.tdV1 := rfl
@[simp] theorem storeBuf_tdV2 (b : Bool) (k n : Nat) (v : Word) (s : State) : (storeBuf b k n v s).tdV2 = s.tdV2 := rfl
@[simp] theorem storeBuf_timing (b : Bool) (k n : Nat) (v : Word) (s : State) : (storeBuf b k n v s).timing = s.timing := rfl
@[simp] theorem storeBuf_init (b : Bool) (k n : Nat) (v : Word) (s : State) : (storeBuf b k n v s).init = s.init := rfl
@[simp] theorem storeBuf_dstate (b : Bool) (k n : Nat) (v : Word) (s : State) : (storeBuf b k n v s).dstate = s.dstate := rfl
@[simp] theorem storeBuf_hop (b : Bool) (k n : Nat) (v : Word) (s : State) : (storeBuf b k n v s).hop = s.hop := rfl
@[simp] theorem storeBuf_result (b : Bool) (k n : Nat) (v : Word) (s : State) : (storeBuf b k n v s).result = s.result := rfl
@[simp] theorem storeBuf_hcount (b : Bool) (k n : Nat) (v : Word) (s : State) : (storeBuf b k n v s).hcount = s.hcount := rfl
@[simp] theorem storeBuf_vline (b : Bool) (k n : Nat) (v : Word) (s : State) : (storeBuf b k n v s).vline = s.vline := rfl
@[simp] theorem storeBuf_timRun (b : Bool) (k n : Nat) (v : Word) (s : State) : (storeBuf b k n v s).timRun = s.timRun := rfl
@[simp] theorem storeBuf_evtMask (b : Bool) (k n : Nat) (v : Word) (s : State) : (storeBuf b k n v s).evtMask = s.evtMask := rfl
@[simp] theorem storeBuf_pinsDriven (b : Bool) (k n : Nat) (v : Word) (s : State) : (storeBuf b k n v s).pinsDriven = s.pinsDriven := rfl
@[simp] theorem storeBuf_vblCount (b : Bool) (k n : Nat) (v : Word) (s : State) : (storeBuf b k n v s).vblCount = s.vblCount := rfl
@[simp] theorem storeBuf_vblFlag (b : Bool) (k n : Nat) (v : Word) (s : State) : (storeBuf b k n v s).vblFlag = s.vblFlag := rfl
@[simp] theorem storeBuf_mem (b : Bool) (k n : Nat) (v : Word) (s : State) : (storeBuf b k n v s).mem = s.mem.writeBytes (bufAddr b k) (bytesOf n v) := rfl
@[simp] theorem storeBuf_work (b : Bool) (k n : Nat) (v : Word) (s : State) : (storeBuf b k n v s).work = s.work := rfl
@[simp] theorem storeBuf_ctx0 (b : Bool) (k n : Nat) (v : Word) (s : State) : (storeBuf b k n v s).ctx0 = s.ctx0 := rfl
@[simp] theorem storeBuf_ctx1 (b : Bool) (k n : Nat) (v : Word) (s : State) : (storeBuf b k n v s).ctx1 = s.ctx1 := rfl
@[simp] theorem storeBuf_fresh (b : Bool) (k n : Nat) (v : Word) (s : State) : (storeBuf b k n v s).fresh = s.fresh := rfl
@[simp] theorem storeBuf_repeatCtr (b : Bool) (k n : Nat) (v : Word) (s : State) : (storeBuf b k n v s).repeatCtr = s.repeatCtr := rfl
@[simp] theorem storeBuf_rastBusy (b : Bool) (k n : Nat) (v : Word) (s : State) : (storeBuf b k n v s).rastBusy = s.rastBusy := rfl
@[simp] theorem storeBuf_rastLine (b : Bool) (k n : Nat) (v : Word) (s : State) : (storeBuf b k n v s).rastLine = s.rastLine := rfl
@[simp] theorem storeBuf_rastSlot (b : Bool) (k n : Nat) (v : Word) (s : State) : (storeBuf b k n v s).rastSlot = s.rastSlot := rfl
@[simp] theorem storeBuf_rastFn (b : Bool) (k n : Nat) (v : Word) (s : State) : (storeBuf b k n v s).rastFn = s.rastFn := rfl
@[simp] theorem storeBuf_ctxRange (b : Bool) (k n : Nat) (v : Word) (s : State) : (storeBuf b k n v s).ctxRange = s.ctxRange := rfl
@[simp] theorem storeBuf_ctxMode (b : Bool) (k n : Nat) (v : Word) (s : State) : (storeBuf b k n v s).ctxMode = s.ctxMode := rfl
@[simp] theorem storeBuf_dmaActive (b : Bool) (k n : Nat) (v : Word) (s : State) : (storeBuf b k n v s).dmaActive = s.dmaActive := rfl
@[simp] theorem storeBuf_dmaPtr (b : Bool) (k n : Nat) (v : Word) (s : State) : (storeBuf b k n v s).dmaPtr = s.dmaPtr := rfl
@[simp] theorem storeBuf_dmaRem (b : Bool) (k n : Nat) (v : Word) (s : State) : (storeBuf b k n v s).dmaRem = s.dmaRem := rfl
@[simp] theorem storeBuf_dmaDiv (b : Bool) (k n : Nat) (v : Word) (s : State) : (storeBuf b k n v s).dmaDiv = s.dmaDiv := rfl
@[simp] theorem storeBuf_dmaNext (b : Bool) (k n : Nat) (v : Word) (s : State) : (storeBuf b k n v s).dmaNext = s.dmaNext := rfl
@[simp] theorem storeBuf_shiftDiv (b : Bool) (k n : Nat) (v : Word) (s : State) : (storeBuf b k n v s).shiftDiv = s.shiftDiv := rfl
@[simp] theorem storeBuf_live (b : Bool) (k n : Nat) (v : Word) (s : State) : (storeBuf b k n v s).live = s.live := rfl
@[simp] theorem storeBuf_videoOut (b : Bool) (k n : Nat) (v : Word) (s : State) : (storeBuf b k n v s).videoOut = s.videoOut := rfl
@[simp] theorem storeBuf_videoEn (b : Bool) (k n : Nat) (v : Word) (s : State) : (storeBuf b k n v s).videoEn = s.videoEn := rfl
@[simp] theorem storeBuf_slotFn (b : Bool) (k n : Nat) (v : Word) (s : State) : (storeBuf b k n v s).slotFn = s.slotFn := rfl
@[simp] theorem storeBuf_tags (b : Bool) (k n : Nat) (v : Word) (s : State) : (storeBuf b k n v s).tags = s.tags := rfl
@[simp] theorem storeBuf_bandRange (b : Bool) (k n : Nat) (v : Word) (s : State) : (storeBuf b k n v s).bandRange = s.bandRange := rfl
@[simp] theorem storeBuf_bandSlot (b : Bool) (k n : Nat) (v : Word) (s : State) : (storeBuf b k n v s).bandSlot = s.bandSlot := rfl
@[simp] theorem storeBuf_bandN (b : Bool) (k n : Nat) (v : Word) (s : State) : (storeBuf b k n v s).bandN = s.bandN := rfl
@[simp] theorem storeBuf_bandPtr (b : Bool) (k n : Nat) (v : Word) (s : State) : (storeBuf b k n v s).bandPtr = s.bandPtr := rfl
@[simp] theorem storeBuf_mtxOwner (b : Bool) (k n : Nat) (v : Word) (s : State) : (storeBuf b k n v s).mtxOwner = s.mtxOwner := rfl
@[simp] theorem storeBuf_faulted (b : Bool) (k n : Nat) (v : Word) (s : State) : (storeBuf b k n v s).faulted = s.faulted := rfl
@[simp] theorem storeBuf_fault (b : Bool) (k n : Nat) (v : Word) (s : State) : (storeBuf b k n v s).fault = s.fault := rfl
@[simp] theorem storeBuf_faultInfo (b : Bool) (k n : Nat) (v : Word) (s : State) : (storeBuf b k n v s).faultInfo = s.faultInfo := rfl
@[simp] theorem storeBuf_params (b : Bool) (k n : Nat) (v : Word) (s : State) : (storeBuf b k n v s).params = s.params := rfl
@[simp] theorem storeBuf_rdata (b : Bool) (k n : Nat) (v : Word) (s : State) : (storeBuf b k n v s).rdata = s.rdata := rfl
@[simp] theorem storeBuf_sched (b : Bool) (k n : Nat) (v : Word) (s : State) : (storeBuf b k n v s).sched = s.sched := rfl
@[simp] theorem storeBuf_stepNo (b : Bool) (k n : Nat) (v : Word) (s : State) : (storeBuf b k n v s).stepNo = s.stepNo := rfl
@[simp] theorem storeBuf_resets (b : Bool) (k n : Nat) (v : Word) (s : State) : (storeBuf b k n v s).resets = s.resets := rfl

@[simp] theorem takeInput_tdCtrl (s : State) : (takeInput s).tdCtrl = s.tdCtrl := rfl
@[simp] theorem takeInput_tdH0 (s : State) : (takeInput s).tdH0 = s.tdH0 := rfl
@[simp] theorem takeInput_tdH1 (s : State) : (takeInput s).tdH1 = s.tdH1 := rfl
@[simp] theorem takeInput_tdH2 (s : State) : (takeInput s).tdH2 = s.tdH2 := rfl
@[simp] theorem takeInput_tdV0 (s : State) : (takeInput s).tdV0 = s.tdV0 := rfl
@[simp] theorem takeInput_tdV1 (s : State) : (takeInput s).tdV1 = s.tdV1 := rfl
@[simp] theorem takeInput_tdV2 (s : State) : (takeInput s).tdV2 = s.tdV2 := rfl
@[simp] theorem takeInput_timing (s : State) : (takeInput s).timing = s.timing := rfl
@[simp] theorem takeInput_init (s : State) : (takeInput s).init = s.init := rfl
@[simp] theorem takeInput_dstate (s : State) : (takeInput s).dstate = s.dstate := rfl
@[simp] theorem takeInput_hop (s : State) : (takeInput s).hop = s.hop := rfl
@[simp] theorem takeInput_result (s : State) : (takeInput s).result = s.result := rfl
@[simp] theorem takeInput_hcount (s : State) : (takeInput s).hcount = s.hcount := rfl
@[simp] theorem takeInput_vline (s : State) : (takeInput s).vline = s.vline := rfl
@[simp] theorem takeInput_timRun (s : State) : (takeInput s).timRun = s.timRun := rfl
@[simp] theorem takeInput_evtMask (s : State) : (takeInput s).evtMask = s.evtMask := rfl
@[simp] theorem takeInput_pinsDriven (s : State) : (takeInput s).pinsDriven = s.pinsDriven := rfl
@[simp] theorem takeInput_vblCount (s : State) : (takeInput s).vblCount = s.vblCount := rfl
@[simp] theorem takeInput_vblFlag (s : State) : (takeInput s).vblFlag = s.vblFlag := rfl
@[simp] theorem takeInput_mem (s : State) : (takeInput s).mem = s.mem := rfl
@[simp] theorem takeInput_work (s : State) : (takeInput s).work = s.work := rfl
@[simp] theorem takeInput_ctx0 (s : State) : (takeInput s).ctx0 = s.ctx0 := rfl
@[simp] theorem takeInput_ctx1 (s : State) : (takeInput s).ctx1 = s.ctx1 := rfl
@[simp] theorem takeInput_fresh (s : State) : (takeInput s).fresh = s.fresh := rfl
@[simp] theorem takeInput_repeatCtr (s : State) : (takeInput s).repeatCtr = s.repeatCtr := rfl
@[simp] theorem takeInput_rastBusy (s : State) : (takeInput s).rastBusy = s.rastBusy := rfl
@[simp] theorem takeInput_rastLine (s : State) : (takeInput s).rastLine = s.rastLine := rfl
@[simp] theorem takeInput_rastSlot (s : State) : (takeInput s).rastSlot = s.rastSlot := rfl
@[simp] theorem takeInput_rastFn (s : State) : (takeInput s).rastFn = s.rastFn := rfl
@[simp] theorem takeInput_ctxRange (s : State) : (takeInput s).ctxRange = s.ctxRange := rfl
@[simp] theorem takeInput_ctxMode (s : State) : (takeInput s).ctxMode = s.ctxMode := rfl
@[simp] theorem takeInput_dmaActive (s : State) : (takeInput s).dmaActive = s.dmaActive := rfl
@[simp] theorem takeInput_dmaPtr (s : State) : (takeInput s).dmaPtr = s.dmaPtr := rfl
@[simp] theorem takeInput_dmaRem (s : State) : (takeInput s).dmaRem = s.dmaRem := rfl
@[simp] theorem takeInput_dmaDiv (s : State) : (takeInput s).dmaDiv = s.dmaDiv := rfl
@[simp] theorem takeInput_dmaNext (s : State) : (takeInput s).dmaNext = s.dmaNext := rfl
@[simp] theorem takeInput_shiftDiv (s : State) : (takeInput s).shiftDiv = s.shiftDiv := rfl
@[simp] theorem takeInput_live (s : State) : (takeInput s).live = s.live := rfl
@[simp] theorem takeInput_videoOut (s : State) : (takeInput s).videoOut = s.videoOut := rfl
@[simp] theorem takeInput_videoEn (s : State) : (takeInput s).videoEn = s.videoEn := rfl
@[simp] theorem takeInput_slotFn (s : State) : (takeInput s).slotFn = s.slotFn := rfl
@[simp] theorem takeInput_tags (s : State) : (takeInput s).tags = s.tags := rfl
@[simp] theorem takeInput_bandRange (s : State) : (takeInput s).bandRange = s.bandRange := rfl
@[simp] theorem takeInput_bandSlot (s : State) : (takeInput s).bandSlot = s.bandSlot := rfl
@[simp] theorem takeInput_bandN (s : State) : (takeInput s).bandN = s.bandN := rfl
@[simp] theorem takeInput_bandPtr (s : State) : (takeInput s).bandPtr = s.bandPtr := rfl
@[simp] theorem takeInput_mtxOwner (s : State) : (takeInput s).mtxOwner = s.mtxOwner := rfl
@[simp] theorem takeInput_faulted (s : State) : (takeInput s).faulted = s.faulted := rfl
@[simp] theorem takeInput_fault (s : State) : (takeInput s).fault = s.fault := rfl
@[simp] theorem takeInput_faultInfo (s : State) : (takeInput s).faultInfo = s.faultInfo := rfl
@[simp] theorem takeInput_params (s : State) : (takeInput s).params = s.params := rfl
@[simp] theorem takeInput_rdata (s : State) : (takeInput s).rdata = s.rdata := rfl
@[simp] theorem takeInput_sched (s : State) : (takeInput s).sched = s.sched.tail := rfl
@[simp] theorem takeInput_stepNo (s : State) : (takeInput s).stepNo = s.stepNo + 1 := rfl
@[simp] theorem takeInput_resets (s : State) : (takeInput s).resets = s.resets := rfl

@[simp] theorem setShape_tdCtrl (b : Bool) (c : Shape) (s : State) : (setShape b c s).tdCtrl = s.tdCtrl := by cases b <;> rfl
@[simp] theorem setShape_tdH0 (b : Bool) (c : Shape) (s : State) : (setShape b c s).tdH0 = s.tdH0 := by cases b <;> rfl
@[simp] theorem setShape_tdH1 (b : Bool) (c : Shape) (s : State) : (setShape b c s).tdH1 = s.tdH1 := by cases b <;> rfl
@[simp] theorem setShape_tdH2 (b : Bool) (c : Shape) (s : State) : (setShape b c s).tdH2 = s.tdH2 := by cases b <;> rfl
@[simp] theorem setShape_tdV0 (b : Bool) (c : Shape) (s : State) : (setShape b c s).tdV0 = s.tdV0 := by cases b <;> rfl
@[simp] theorem setShape_tdV1 (b : Bool) (c : Shape) (s : State) : (setShape b c s).tdV1 = s.tdV1 := by cases b <;> rfl
@[simp] theorem setShape_tdV2 (b : Bool) (c : Shape) (s : State) : (setShape b c s).tdV2 = s.tdV2 := by cases b <;> rfl
@[simp] theorem setShape_timing (b : Bool) (c : Shape) (s : State) : (setShape b c s).timing = s.timing := by cases b <;> rfl
@[simp] theorem setShape_init (b : Bool) (c : Shape) (s : State) : (setShape b c s).init = s.init := by cases b <;> rfl
@[simp] theorem setShape_dstate (b : Bool) (c : Shape) (s : State) : (setShape b c s).dstate = s.dstate := by cases b <;> rfl
@[simp] theorem setShape_hop (b : Bool) (c : Shape) (s : State) : (setShape b c s).hop = s.hop := by cases b <;> rfl
@[simp] theorem setShape_result (b : Bool) (c : Shape) (s : State) : (setShape b c s).result = s.result := by cases b <;> rfl
@[simp] theorem setShape_hcount (b : Bool) (c : Shape) (s : State) : (setShape b c s).hcount = s.hcount := by cases b <;> rfl
@[simp] theorem setShape_vline (b : Bool) (c : Shape) (s : State) : (setShape b c s).vline = s.vline := by cases b <;> rfl
@[simp] theorem setShape_timRun (b : Bool) (c : Shape) (s : State) : (setShape b c s).timRun = s.timRun := by cases b <;> rfl
@[simp] theorem setShape_evtMask (b : Bool) (c : Shape) (s : State) : (setShape b c s).evtMask = s.evtMask := by cases b <;> rfl
@[simp] theorem setShape_pinsDriven (b : Bool) (c : Shape) (s : State) : (setShape b c s).pinsDriven = s.pinsDriven := by cases b <;> rfl
@[simp] theorem setShape_vblCount (b : Bool) (c : Shape) (s : State) : (setShape b c s).vblCount = s.vblCount := by cases b <;> rfl
@[simp] theorem setShape_vblFlag (b : Bool) (c : Shape) (s : State) : (setShape b c s).vblFlag = s.vblFlag := by cases b <;> rfl
@[simp] theorem setShape_mem (b : Bool) (c : Shape) (s : State) : (setShape b c s).mem = s.mem := by cases b <;> rfl
@[simp] theorem setShape_work (b : Bool) (c : Shape) (s : State) : (setShape b c s).work = s.work := by cases b <;> rfl
@[simp] theorem setShape_ctx0 (b : Bool) (c : Shape) (s : State) : (setShape b c s).ctx0 = if b then s.ctx0 else c := by cases b <;> rfl
@[simp] theorem setShape_ctx1 (b : Bool) (c : Shape) (s : State) : (setShape b c s).ctx1 = if b then c else s.ctx1 := by cases b <;> rfl
@[simp] theorem setShape_fresh (b : Bool) (c : Shape) (s : State) : (setShape b c s).fresh = s.fresh := by cases b <;> rfl
@[simp] theorem setShape_repeatCtr (b : Bool) (c : Shape) (s : State) : (setShape b c s).repeatCtr = s.repeatCtr := by cases b <;> rfl
@[simp] theorem setShape_rastBusy (b : Bool) (c : Shape) (s : State) : (setShape b c s).rastBusy = s.rastBusy := by cases b <;> rfl
@[simp] theorem setShape_rastLine (b : Bool) (c : Shape) (s : State) : (setShape b c s).rastLine = s.rastLine := by cases b <;> rfl
@[simp] theorem setShape_rastSlot (b : Bool) (c : Shape) (s : State) : (setShape b c s).rastSlot = s.rastSlot := by cases b <;> rfl
@[simp] theorem setShape_rastFn (b : Bool) (c : Shape) (s : State) : (setShape b c s).rastFn = s.rastFn := by cases b <;> rfl
@[simp] theorem setShape_ctxRange (b : Bool) (c : Shape) (s : State) : (setShape b c s).ctxRange = s.ctxRange := by cases b <;> rfl
@[simp] theorem setShape_ctxMode (b : Bool) (c : Shape) (s : State) : (setShape b c s).ctxMode = s.ctxMode := by cases b <;> rfl
@[simp] theorem setShape_dmaActive (b : Bool) (c : Shape) (s : State) : (setShape b c s).dmaActive = s.dmaActive := by cases b <;> rfl
@[simp] theorem setShape_dmaPtr (b : Bool) (c : Shape) (s : State) : (setShape b c s).dmaPtr = s.dmaPtr := by cases b <;> rfl
@[simp] theorem setShape_dmaRem (b : Bool) (c : Shape) (s : State) : (setShape b c s).dmaRem = s.dmaRem := by cases b <;> rfl
@[simp] theorem setShape_dmaDiv (b : Bool) (c : Shape) (s : State) : (setShape b c s).dmaDiv = s.dmaDiv := by cases b <;> rfl
@[simp] theorem setShape_dmaNext (b : Bool) (c : Shape) (s : State) : (setShape b c s).dmaNext = s.dmaNext := by cases b <;> rfl
@[simp] theorem setShape_shiftDiv (b : Bool) (c : Shape) (s : State) : (setShape b c s).shiftDiv = s.shiftDiv := by cases b <;> rfl
@[simp] theorem setShape_live (b : Bool) (c : Shape) (s : State) : (setShape b c s).live = s.live := by cases b <;> rfl
@[simp] theorem setShape_videoOut (b : Bool) (c : Shape) (s : State) : (setShape b c s).videoOut = s.videoOut := by cases b <;> rfl
@[simp] theorem setShape_videoEn (b : Bool) (c : Shape) (s : State) : (setShape b c s).videoEn = s.videoEn := by cases b <;> rfl
@[simp] theorem setShape_slotFn (b : Bool) (c : Shape) (s : State) : (setShape b c s).slotFn = s.slotFn := by cases b <;> rfl
@[simp] theorem setShape_tags (b : Bool) (c : Shape) (s : State) : (setShape b c s).tags = s.tags := by cases b <;> rfl
@[simp] theorem setShape_bandRange (b : Bool) (c : Shape) (s : State) : (setShape b c s).bandRange = s.bandRange := by cases b <;> rfl
@[simp] theorem setShape_bandSlot (b : Bool) (c : Shape) (s : State) : (setShape b c s).bandSlot = s.bandSlot := by cases b <;> rfl
@[simp] theorem setShape_bandN (b : Bool) (c : Shape) (s : State) : (setShape b c s).bandN = s.bandN := by cases b <;> rfl
@[simp] theorem setShape_bandPtr (b : Bool) (c : Shape) (s : State) : (setShape b c s).bandPtr = s.bandPtr := by cases b <;> rfl
@[simp] theorem setShape_mtxOwner (b : Bool) (c : Shape) (s : State) : (setShape b c s).mtxOwner = s.mtxOwner := by cases b <;> rfl
@[simp] theorem setShape_faulted (b : Bool) (c : Shape) (s : State) : (setShape b c s).faulted = s.faulted := by cases b <;> rfl
@[simp] theorem setShape_fault (b : Bool) (c : Shape) (s : State) : (setShape b c s).fault = s.fault := by cases b <;> rfl
@[simp] theorem setShape_faultInfo (b : Bool) (c : Shape) (s : State) : (setShape b c s).faultInfo = s.faultInfo := by cases b <;> rfl
@[simp] theorem setShape_params (b : Bool) (c : Shape) (s : State) : (setShape b c s).params = s.params := by cases b <;> rfl
@[simp] theorem setShape_rdata (b : Bool) (c : Shape) (s : State) : (setShape b c s).rdata = s.rdata := by cases b <;> rfl
@[simp] theorem setShape_sched (b : Bool) (c : Shape) (s : State) : (setShape b c s).sched = s.sched := by cases b <;> rfl
@[simp] theorem setShape_stepNo (b : Bool) (c : Shape) (s : State) : (setShape b c s).stepNo = s.stepNo := by cases b <;> rfl
@[simp] theorem setShape_resets (b : Bool) (c : Shape) (s : State) : (setShape b c s).resets = s.resets := by cases b <;> rfl

@[simp] theorem startSync_tdCtrl (s : State) : (startSync s).tdCtrl = s.tdCtrl := rfl
@[simp] theorem startSync_tdH0 (s : State) : (startSync s).tdH0 = s.tdH0 := rfl
@[simp] theorem startSync_tdH1 (s : State) : (startSync s).tdH1 = s.tdH1 := rfl
@[simp] theorem startSync_tdH2 (s : State) : (startSync s).tdH2 = s.tdH2 := rfl
@[simp] theorem startSync_tdV0 (s : State) : (startSync s).tdV0 = s.tdV0 := rfl
@[simp] theorem startSync_tdV1 (s : State) : (startSync s).tdV1 = s.tdV1 := rfl
@[simp] theorem startSync_tdV2 (s : State) : (startSync s).tdV2 = s.tdV2 := rfl
@[simp] theorem startSync_timing (s : State) : (startSync s).timing = stagedTiming s := rfl
@[simp] theorem startSync_init (s : State) : (startSync s).init = s.init := rfl
@[simp] theorem startSync_dstate (s : State) : (startSync s).dstate = .syncGen := rfl
@[simp] theorem startSync_hop (s : State) : (startSync s).hop = s.hop := rfl
@[simp] theorem startSync_result (s : State) : (startSync s).result = 0 := rfl
@[simp] theorem startSync_hcount (s : State) : (startSync s).hcount = 0 := rfl
@[simp] theorem startSync_vline (s : State) : (startSync s).vline = 0 := rfl
@[simp] theorem startSync_timRun (s : State) : (startSync s).timRun = true := rfl
@[simp] theorem startSync_evtMask (s : State) : (startSync s).evtMask = false := rfl
@[simp] theorem startSync_pinsDriven (s : State) : (startSync s).pinsDriven = true := rfl
@[simp] theorem startSync_vblCount (s : State) : (startSync s).vblCount = s.vblCount := rfl
@[simp] theorem startSync_vblFlag (s : State) : (startSync s).vblFlag = s.vblFlag := rfl
@[simp] theorem startSync_mem (s : State) : (startSync s).mem = s.mem := rfl
@[simp] theorem startSync_work (s : State) : (startSync s).work = false := rfl
@[simp] theorem startSync_ctx0 (s : State) : (startSync s).ctx0 = { s.ctx0 with valid := false } := rfl
@[simp] theorem startSync_ctx1 (s : State) : (startSync s).ctx1 = { s.ctx1 with valid := false } := rfl
@[simp] theorem startSync_fresh (s : State) : (startSync s).fresh = false := rfl
@[simp] theorem startSync_repeatCtr (s : State) : (startSync s).repeatCtr = 0 := rfl
@[simp] theorem startSync_rastBusy (s : State) : (startSync s).rastBusy = false := rfl
@[simp] theorem startSync_rastLine (s : State) : (startSync s).rastLine = s.rastLine := rfl
@[simp] theorem startSync_rastSlot (s : State) : (startSync s).rastSlot = s.rastSlot := rfl
@[simp] theorem startSync_rastFn (s : State) : (startSync s).rastFn = s.rastFn := rfl
@[simp] theorem startSync_ctxRange (s : State) : (startSync s).ctxRange = s.ctxRange := rfl
@[simp] theorem startSync_ctxMode (s : State) : (startSync s).ctxMode = s.ctxMode := rfl
@[simp] theorem startSync_dmaActive (s : State) : (startSync s).dmaActive = false := rfl
@[simp] theorem startSync_dmaPtr (s : State) : (startSync s).dmaPtr = s.dmaPtr := rfl
@[simp] theorem startSync_dmaRem (s : State) : (startSync s).dmaRem = s.dmaRem := rfl
@[simp] theorem startSync_dmaDiv (s : State) : (startSync s).dmaDiv = s.dmaDiv := rfl
@[simp] theorem startSync_dmaNext (s : State) : (startSync s).dmaNext = s.dmaNext := rfl
@[simp] theorem startSync_shiftDiv (s : State) : (startSync s).shiftDiv = (stagedTiming s).cpp := rfl
@[simp] theorem startSync_live (s : State) : (startSync s).live = false := rfl
@[simp] theorem startSync_videoOut (s : State) : (startSync s).videoOut = 0 := rfl
@[simp] theorem startSync_videoEn (s : State) : (startSync s).videoEn = s.videoEn := rfl
@[simp] theorem startSync_slotFn (s : State) : (startSync s).slotFn = s.slotFn := rfl
@[simp] theorem startSync_tags (s : State) : (startSync s).tags = s.tags := rfl
@[simp] theorem startSync_bandRange (s : State) : (startSync s).bandRange = s.bandRange := rfl
@[simp] theorem startSync_bandSlot (s : State) : (startSync s).bandSlot = s.bandSlot := rfl
@[simp] theorem startSync_bandN (s : State) : (startSync s).bandN = s.bandN := rfl
@[simp] theorem startSync_bandPtr (s : State) : (startSync s).bandPtr = 0 := rfl
@[simp] theorem startSync_mtxOwner (s : State) : (startSync s).mtxOwner = .free := rfl
@[simp] theorem startSync_faulted (s : State) : (startSync s).faulted = s.faulted := rfl
@[simp] theorem startSync_fault (s : State) : (startSync s).fault = s.fault := rfl
@[simp] theorem startSync_faultInfo (s : State) : (startSync s).faultInfo = s.faultInfo := rfl
@[simp] theorem startSync_params (s : State) : (startSync s).params = s.params := rfl
@[simp] theorem startSync_rdata (s : State) : (startSync s).rdata = s.rdata := rfl
@[simp] theorem startSync_sched (s : State) : (startSync s).sched = s.sched := rfl
@[simp] theorem startSync_stepNo (s : State) : (startSync s).stepNo = s.stepNo := rfl
@[simp] theorem startSync_resets (s : State) : (startSync s).resets = s.resets := rfl

@[simp] theorem clearShapes_tdCtrl (s : State) : (clearShapes s).tdCtrl = s.tdCtrl := rfl
@[simp] theorem clearShapes_tdH0 (s : State) : (clearShapes s).tdH0 = s.tdH0 := rfl
@[simp] theorem clearShapes_tdH1 (s : State) : (clearShapes s).tdH1 = s.tdH1 := rfl
@[simp] theorem clearShapes_tdH2 (s : State) : (clearShapes s).tdH2 = s.tdH2 := rfl
@[simp] theorem clearShapes_tdV0 (s : State) : (clearShapes s).tdV0 = s.tdV0 := rfl
@[simp] theorem clearShapes_tdV1 (s : State) : (clearShapes s).tdV1 = s.tdV1 := rfl
@[simp] theorem clearShapes_tdV2 (s : State) : (clearShapes s).tdV2 = s.tdV2 := rfl
@[simp] theorem clearShapes_timing (s : State) : (clearShapes s).timing = s.timing := rfl
@[simp] theorem clearShapes_init (s : State) : (clearShapes s).init = s.init := rfl
@[simp] theorem clearShapes_dstate (s : State) : (clearShapes s).dstate = s.dstate := rfl
@[simp] theorem clearShapes_hop (s : State) : (clearShapes s).hop = s.hop := rfl
@[simp] theorem clearShapes_result (s : State) : (clearShapes s).result = s.result := rfl
@[simp] theorem clearShapes_hcount (s : State) : (clearShapes s).hcount = s.hcount := rfl
@[simp] theorem clearShapes_vline (s : State) : (clearShapes s).vline = s.vline := rfl
@[simp] theorem clearShapes_timRun (s : State) : (clearShapes s).timRun = s.timRun := rfl
@[simp] theorem clearShapes_evtMask (s : State) : (clearShapes s).evtMask = s.evtMask := rfl
@[simp] theorem clearShapes_pinsDriven (s : State) : (clearShapes s).pinsDriven = s.pinsDriven := rfl
@[simp] theorem clearShapes_vblCount (s : State) : (clearShapes s).vblCount = s.vblCount := rfl
@[simp] theorem clearShapes_vblFlag (s : State) : (clearShapes s).vblFlag = s.vblFlag := rfl
@[simp] theorem clearShapes_mem (s : State) : (clearShapes s).mem = s.mem := rfl
@[simp] theorem clearShapes_work (s : State) : (clearShapes s).work = s.work := rfl
@[simp] theorem clearShapes_ctx0 (s : State) : (clearShapes s).ctx0 = { s.ctx0 with valid := false } := rfl
@[simp] theorem clearShapes_ctx1 (s : State) : (clearShapes s).ctx1 = { s.ctx1 with valid := false } := rfl
@[simp] theorem clearShapes_fresh (s : State) : (clearShapes s).fresh = false := rfl
@[simp] theorem clearShapes_repeatCtr (s : State) : (clearShapes s).repeatCtr = 0 := rfl
@[simp] theorem clearShapes_rastBusy (s : State) : (clearShapes s).rastBusy = s.rastBusy := rfl
@[simp] theorem clearShapes_rastLine (s : State) : (clearShapes s).rastLine = s.rastLine := rfl
@[simp] theorem clearShapes_rastSlot (s : State) : (clearShapes s).rastSlot = s.rastSlot := rfl
@[simp] theorem clearShapes_rastFn (s : State) : (clearShapes s).rastFn = s.rastFn := rfl
@[simp] theorem clearShapes_ctxRange (s : State) : (clearShapes s).ctxRange = s.ctxRange := rfl
@[simp] theorem clearShapes_ctxMode (s : State) : (clearShapes s).ctxMode = s.ctxMode := rfl
@[simp] theorem clearShapes_dmaActive (s : State) : (clearShapes s).dmaActive = s.dmaActive := rfl
@[simp] theorem clearShapes_dmaPtr (s : State) : (clearShapes s).dmaPtr = s.dmaPtr := rfl
@[simp] theorem clearShapes_dmaRem (s : State) : (clearShapes s).dmaRem = s.dmaRem := rfl
@[simp] theorem clearShapes_dmaDiv (s : State) : (clearShapes s).dmaDiv = s.dmaDiv := rfl
@[simp] theorem clearShapes_dmaNext (s : State) : (clearShapes s).dmaNext = s.dmaNext := rfl
@[simp] theorem clearShapes_shiftDiv (s : State) : (clearShapes s).shiftDiv = s.shiftDiv := rfl
@[simp] theorem clearShapes_live (s : State) : (clearShapes s).live = s.live := rfl
@[simp] theorem clearShapes_videoOut (s : State) : (clearShapes s).videoOut = s.videoOut := rfl
@[simp] theorem clearShapes_videoEn (s : State) : (clearShapes s).videoEn = s.videoEn := rfl
@[simp] theorem clearShapes_slotFn (s : State) : (clearShapes s).slotFn = s.slotFn := rfl
@[simp] theorem clearShapes_tags (s : State) : (clearShapes s).tags = s.tags := rfl
@[simp] theorem clearShapes_bandRange (s : State) : (clearShapes s).bandRange = s.bandRange := rfl
@[simp] theorem clearShapes_bandSlot (s : State) : (clearShapes s).bandSlot = s.bandSlot := rfl
@[simp] theorem clearShapes_bandN (s : State) : (clearShapes s).bandN = s.bandN := rfl
@[simp] theorem clearShapes_bandPtr (s : State) : (clearShapes s).bandPtr = s.bandPtr := rfl
@[simp] theorem clearShapes_mtxOwner (s : State) : (clearShapes s).mtxOwner = s.mtxOwner := rfl
@[simp] theorem clearShapes_faulted (s : State) : (clearShapes s).faulted = s.faulted := rfl
@[simp] theorem clearShapes_fault (s : State) : (clearShapes s).fault = s.fault := rfl
@[simp] theorem clearShapes_faultInfo (s : State) : (clearShapes s).faultInfo = s.faultInfo := rfl
@[simp] theorem clearShapes_params (s : State) : (clearShapes s).params = s.params := rfl
@[simp] theorem clearShapes_rdata (s : State) : (clearShapes s).rdata = s.rdata := rfl
@[simp] theorem clearShapes_sched (s : State) : (clearShapes s).sched = s.sched := rfl
@[simp] theorem clearShapes_stepNo (s : State) : (clearShapes s).stepNo = s.stepNo := rfl
@[simp] theorem clearShapes_resets (s : State) : (clearShapes s).resets = s.resets := rfl

@[simp] theorem dmaBeat_tdCtrl (s : State) : (dmaBeat s).tdCtrl = s.tdCtrl := rfl
@[simp] theorem dmaBeat_tdH0 (s : State) : (dmaBeat s).tdH0 = s.tdH0 := rfl
@[simp] theorem dmaBeat_tdH1 (s : State) : (dmaBeat s).tdH1 = s.tdH1 := rfl
@[simp] theorem dmaBeat_tdH2 (s : State) : (dmaBeat s).tdH2 = s.tdH2 := rfl
@[simp] theorem dmaBeat_tdV0 (s : State) : (dmaBeat s).tdV0 = s.tdV0 := rfl
@[simp] theorem dmaBeat_tdV1 (s : State) : (dmaBeat s).tdV1 = s.tdV1 := rfl
@[simp] theorem dmaBeat_tdV2 (s : State) : (dmaBeat s).tdV2 = s.tdV2 := rfl
@[simp] theorem dmaBeat_timing (s : State) : (dmaBeat s).timing = s.timing := rfl
@[simp] theorem dmaBeat_init (s : State) : (dmaBeat s).init = s.init := rfl
@[simp] theorem dmaBeat_dstate (s : State) : (dmaBeat s).dstate = s.dstate := rfl
@[simp] theorem dmaBeat_hop (s : State) : (dmaBeat s).hop = s.hop := rfl
@[simp] theorem dmaBeat_result (s : State) : (dmaBeat s).result = s.result := rfl
@[simp] theorem dmaBeat_hcount (s : State) : (dmaBeat s).hcount = s.hcount := rfl
@[simp] theorem dmaBeat_vline (s : State) : (dmaBeat s).vline = s.vline := rfl
@[simp] theorem dmaBeat_timRun (s : State) : (dmaBeat s).timRun = s.timRun := rfl
@[simp] theorem dmaBeat_evtMask (s : State) : (dmaBeat s).evtMask = s.evtMask := rfl
@[simp] theorem dmaBeat_pinsDriven (s : State) : (dmaBeat s).pinsDriven = s.pinsDriven := rfl
@[simp] theorem dmaBeat_vblCount (s : State) : (dmaBeat s).vblCount = s.vblCount := rfl
@[simp] theorem dmaBeat_vblFlag (s : State) : (dmaBeat s).vblFlag = s.vblFlag := rfl
@[simp] theorem dmaBeat_mem (s : State) : (dmaBeat s).mem = s.mem := rfl
@[simp] theorem dmaBeat_work (s : State) : (dmaBeat s).work = s.work := rfl
@[simp] theorem dmaBeat_ctx0 (s : State) : (dmaBeat s).ctx0 = s.ctx0 := rfl
@[simp] theorem dmaBeat_ctx1 (s : State) : (dmaBeat s).ctx1 = s.ctx1 := rfl
@[simp] theorem dmaBeat_fresh (s : State) : (dmaBeat s).fresh = s.fresh := rfl
@[simp] theorem dmaBeat_repeatCtr (s : State) : (dmaBeat s).repeatCtr = s.repeatCtr := rfl
@[simp] theorem dmaBeat_rastBusy (s : State) : (dmaBeat s).rastBusy = s.rastBusy := rfl
@[simp] theorem dmaBeat_rastLine (s : State) : (dmaBeat s).rastLine = s.rastLine := rfl
@[simp] theorem dmaBeat_rastSlot (s : State) : (dmaBeat s).rastSlot = s.rastSlot := rfl
@[simp] theorem dmaBeat_rastFn (s : State) : (dmaBeat s).rastFn = s.rastFn := rfl
@[simp] theorem dmaBeat_ctxRange (s : State) : (dmaBeat s).ctxRange = s.ctxRange := rfl
@[simp] theorem dmaBeat_ctxMode (s : State) : (dmaBeat s).ctxMode = s.ctxMode := rfl
@[simp] theorem dmaBeat_dmaActive (s : State) : (dmaBeat s).dmaActive = if s.dmaRem - 1 = 0 then false else s.dmaActive := rfl
@[simp] theorem dmaBeat_dmaPtr (s : State) : (dmaBeat s).dmaPtr = s.dmaPtr + 1 := rfl
@[simp] theorem dmaBeat_dmaRem (s : State) : (dmaBeat s).dmaRem = s.dmaRem - 1 := rfl
@[simp] theorem dmaBeat_dmaDiv (s : State) : (dmaBeat s).dmaDiv = s.dmaDiv := rfl
@[simp] theorem dmaBeat_dmaNext (s : State) : (dmaBeat s).dmaNext = s.dmaNext + s.dmaDiv.toNat := rfl
@[simp] theorem dmaBeat_shiftDiv (s : State) : (dmaBeat s).shiftDiv = s.shiftDiv := rfl
@[simp] theorem dmaBeat_live (s : State) : (dmaBeat s).live = s.live := rfl
@[simp] theorem dmaBeat_videoOut (s : State) : (dmaBeat s).videoOut = bufByte s (!s.work) s.dmaPtr.toNat := rfl
@[simp] theorem dmaBeat_videoEn (s : State) : (dmaBeat s).videoEn = s.videoEn := rfl
@[simp] theorem dmaBeat_slotFn (s : State) : (dmaBeat s).slotFn = s.slotFn := rfl
@[simp] theorem dmaBeat_tags (s : State) : (dmaBeat s).tags = s.tags := rfl
@[simp] theorem dmaBeat_bandRange (s : State) : (dmaBeat s).bandRange = s.bandRange := rfl
@[simp] theorem dmaBeat_bandSlot (s : State) : (dmaBeat s).bandSlot = s.bandSlot := rfl
@[simp] theorem dmaBeat_bandN (s : State) : (dmaBeat s).bandN = s.bandN := rfl
@[simp] theorem dmaBeat_bandPtr (s : State) : (dmaBeat s).bandPtr = s.bandPtr := rfl
@[simp] theorem dmaBeat_mtxOwner (s : State) : (dmaBeat s).mtxOwner = s.mtxOwner := rfl
@[simp] theorem dmaBeat_faulted (s : State) : (dmaBeat s).faulted = s.faulted := rfl
@[simp] theorem dmaBeat_fault (s : State) : (dmaBeat s).fault = s.fault := rfl
@[simp] theorem dmaBeat_faultInfo (s : State) : (dmaBeat s).faultInfo = s.faultInfo := rfl
@[simp] theorem dmaBeat_params (s : State) : (dmaBeat s).params = s.params := rfl
@[simp] theorem dmaBeat_rdata (s : State) : (dmaBeat s).rdata = s.rdata := rfl
@[simp] theorem dmaBeat_sched (s : State) : (dmaBeat s).sched = s.sched := rfl
@[simp] theorem dmaBeat_stepNo (s : State) : (dmaBeat s).stepNo = s.stepNo := rfl
@[simp] theorem dmaBeat_resets (s : State) : (dmaBeat s).resets = s.resets := rfl

@[simp] theorem commitContext_tdCtrl (s : State) : (commitContext s).tdCtrl = s.tdCtrl := setShape_tdCtrl _ _ _
@[simp] theorem commitContext_tdH0 (s : State) : (commitContext s).tdH0 = s.tdH0 := setShape_tdH0 _ _ _
@[simp] theorem commitContext_tdH1 (s : State) : (commitContext s).tdH1 = s.tdH1 := setShape_tdH1 _ _ _
@[simp] theorem commitContext_tdH2 (s : State) : (commitContext s).tdH2 = s.tdH2 := setShape_tdH2 _ _ _
@[simp] theorem commitContext_tdV0 (s : State) : (commitContext s).tdV0 = s.tdV0 := setShape_tdV0 _ _ _
@[simp] theorem commitContext_tdV1 (s : State) : (commitContext s).tdV1 = s.tdV1 := setShape_tdV1 _ _ _
@[simp] theorem commitContext_tdV2 (s : State) : (commitContext s).tdV2 = s.tdV2 := setShape_tdV2 _ _ _
@[simp] theorem commitContext_timing (s : State) : (commitContext s).timing = s.timing := setShape_timing _ _ _
@[simp] theorem commitContext_init (s : State) : (commitContext s).init = s.init := setShape_init _ _ _
@[simp] theorem commitContext_dstate (s : State) : (commitContext s).dstate = s.dstate := setShape_dstate _ _ _
@[simp] theorem commitContext_hop (s : State) : (commitContext s).hop = s.hop := setShape_hop _ _ _
@[simp] theorem commitContext_result (s : State) : (commitContext s).result = s.result := setShape_result _ _ _
@[simp] theorem commitContext_hcount (s : State) : (commitContext s).hcount = s.hcount := setShape_hcount _ _ _
@[simp] theorem commitContext_vline (s : State) : (commitContext s).vline = s.vline := setShape_vline _ _ _
@[simp] theorem commitContext_timRun (s : State) : (commitContext s).timRun = s.timRun := setShape_timRun _ _ _
@[simp] theorem commitContext_evtMask (s : State) : (commitContext s).evtMask = s.evtMask := setShape_evtMask _ _ _
@[simp] theorem commitContext_pinsDriven (s : State) : (commitContext s).pinsDriven = s.pinsDriven := setShape_pinsDriven _ _ _
@[simp] theorem commitContext_vblCount (s : State) : (commitContext s).vblCount = s.vblCount := setShape_vblCount _ _ _
@[simp] theorem commitContext_vblFlag (s : State) : (commitContext s).vblFlag = s.vblFlag := setShape_vblFlag _ _ _
@[simp] theorem commitContext_mem (s : State) : (commitContext s).mem = s.mem := setShape_mem _ _ _
@[simp] theorem commitContext_work (s : State) : (commitContext s).work = s.work := setShape_work _ _ _
@[simp] theorem commitContext_fresh (s : State) : (commitContext s).fresh = true := rfl
@[simp] theorem commitContext_repeatCtr (s : State) : (commitContext s).repeatCtr = ctxRepeat s.ctxMode := rfl
@[simp] theorem commitContext_rastBusy (s : State) : (commitContext s).rastBusy = false := rfl
@[simp] theorem commitContext_rastLine (s : State) : (commitContext s).rastLine = s.rastLine := setShape_rastLine _ _ _
@[simp] theorem commitContext_rastSlot (s : State) : (commitContext s).rastSlot = s.rastSlot := setShape_rastSlot _ _ _
@[simp] theorem commitContext_rastFn (s : State) : (commitContext s).rastFn = s.rastFn := setShape_rastFn _ _ _
@[simp] theorem commitContext_ctxRange (s : State) : (commitContext s).ctxRange = s.ctxRange := setShape_ctxRange _ _ _
@[simp] theorem commitContext_ctxMode (s : State) : (commitContext s).ctxMode = s.ctxMode := setShape_ctxMode _ _ _
@[simp] theorem commitContext_dmaActive (s : State) : (commitContext s).dmaActive = s.dmaActive := setShape_dmaActive _ _ _
@[simp] theorem commitContext_dmaPtr (s : State) : (commitContext s).dmaPtr = s.dmaPtr := setShape_dmaPtr _ _ _
@[simp] theorem commitContext_dmaRem (s : State) : (commitContext s).dmaRem = s.dmaRem := setShape_dmaRem _ _ _
@[simp] theorem commitContext_dmaDiv (s : State) : (commitContext s).dmaDiv = s.dmaDiv := setShape_dmaDiv _ _ _
@[simp] theorem commitContext_dmaNext (s : State) : (commitContext s).dmaNext = s.dmaNext := setShape_dmaNext _ _ _
@[simp] theorem commitContext_shiftDiv (s : State) : (commitContext s).shiftDiv = effectiveDiv s := rfl
@[simp] theorem commitContext_live (s : State) : (commitContext s).live = s.live := setShape_live _ _ _
@[simp] theorem commitContext_videoOut (s : State) : (commitContext s).videoOut = s.videoOut := setShape_videoOut _ _ _
@[simp] theorem commitContext_videoEn (s : State) : (commitContext s).videoEn = s.videoEn := setShape_videoEn _ _ _
@[simp] theorem commitContext_slotFn (s : State) : (commitContext s).slotFn = s.slotFn := setShape_slotFn _ _ _
@[simp] theorem commitContext_tags (s : State) : (commitContext s).tags = s.tags := setShape_tags _ _ _
@[simp] theorem commitContext_bandRange (s : State) : (commitContext s).bandRange = s.bandRange := setShape_bandRange _ _ _
@[simp] theorem commitContext_bandSlot (s : State) : (commitContext s).bandSlot = s.bandSlot := setShape_bandSlot _ _ _
@[simp] theorem commitContext_bandN (s : State) : (commitContext s).bandN = s.bandN := setShape_bandN _ _ _
@[simp] theorem commitContext_bandPtr (s : State) : (commitContext s).bandPtr = s.bandPtr := setShape_bandPtr _ _ _
@[simp] theorem commitContext_mtxOwner (s : State) : (commitContext s).mtxOwner = s.mtxOwner := setShape_mtxOwner _ _ _
@[simp] theorem commitContext_faulted (s : State) : (commitContext s).faulted = s.faulted := setShape_faulted _ _ _
@[simp] theorem commitContext_fault (s : State) : (commitContext s).fault = s.fault := setShape_fault _ _ _
@[simp] theorem commitContext_faultInfo (s : State) : (commitContext s).faultInfo = s.faultInfo := setShape_faultInfo _ _ _
@[simp] theorem commitContext_params (s : State) : (commitContext s).params = s.params := setShape_params _ _ _
@[simp] theorem commitContext_rdata (s : State) : (commitContext s).rdata = s.rdata := setShape_rdata _ _ _
@[simp] theorem commitContext_sched (s : State) : (commitContext s).sched = s.sched := setShape_sched _ _ _
@[simp] theorem commitContext_stepNo (s : State) : (commitContext s).stepNo = s.stepNo := setShape_stepNo _ _ _
@[simp] theorem commitContext_resets (s : State) : (commitContext s).resets = s.resets := setShape_resets _ _ _

@[simp] theorem countTick_tdCtrl (s : State) : (countTick s).tdCtrl = s.tdCtrl := rfl
@[simp] theorem countTick_tdH0 (s : State) : (countTick s).tdH0 = s.tdH0 := rfl
@[simp] theorem countTick_tdH1 (s : State) : (countTick s).tdH1 = s.tdH1 := rfl
@[simp] theorem countTick_tdH2 (s : State) : (countTick s).tdH2 = s.tdH2 := rfl
@[simp] theorem countTick_tdV0 (s : State) : (countTick s).tdV0 = s.tdV0 := rfl
@[simp] theorem countTick_tdV1 (s : State) : (countTick s).tdV1 = s.tdV1 := rfl
@[simp] theorem countTick_tdV2 (s : State) : (countTick s).tdV2 = s.tdV2 := rfl
@[simp] theorem countTick_timing (s : State) : (countTick s).timing = s.timing := rfl
@[simp] theorem countTick_init (s : State) : (countTick s).init = s.init := rfl
@[simp] theorem countTick_dstate (s : State) : (countTick s).dstate = s.dstate := rfl
@[simp] theorem countTick_hop (s : State) : (countTick s).hop = s.hop := rfl
@[simp] theorem countTick_result (s : State) : (countTick s).result = s.result := rfl
@[simp] theorem countTick_hcount (s : State) : (countTick s).hcount = if s.hcount.toNat + 1 = s.timing.period then 0 else s.hcount + 1 := rfl
@[simp] theorem countTick_vline (s : State) : (countTick s).vline = s.vline := rfl
@[simp] theorem countTick_timRun (s : State) : (countTick s).timRun = s.timRun := rfl
@[simp] theorem countTick_evtMask (s : State) : (countTick s).evtMask = s.evtMask := rfl
@[simp] theorem countTick_pinsDriven (s : State) : (countTick s).pinsDriven = s.pinsDriven := rfl
@[simp] theorem countTick_vblCount (s : State) : (countTick s).vblCount = s.vblCount := rfl
@[simp] theorem countTick_vblFlag (s : State) : (countTick s).vblFlag = s.vblFlag := rfl
@[simp] theorem countTick_mem (s : State) : (countTick s).mem = s.mem := rfl
@[simp] theorem countTick_work (s : State) : (countTick s).work = s.work := rfl
@[simp] theorem countTick_ctx0 (s : State) : (countTick s).ctx0 = s.ctx0 := rfl
@[simp] theorem countTick_ctx1 (s : State) : (countTick s).ctx1 = s.ctx1 := rfl
@[simp] theorem countTick_fresh (s : State) : (countTick s).fresh = s.fresh := rfl
@[simp] theorem countTick_repeatCtr (s : State) : (countTick s).repeatCtr = s.repeatCtr := rfl
@[simp] theorem countTick_rastBusy (s : State) : (countTick s).rastBusy = s.rastBusy := rfl
@[simp] theorem countTick_rastLine (s : State) : (countTick s).rastLine = s.rastLine := rfl
@[simp] theorem countTick_rastSlot (s : State) : (countTick s).rastSlot = s.rastSlot := rfl
@[simp] theorem countTick_rastFn (s : State) : (countTick s).rastFn = s.rastFn := rfl
@[simp] theorem countTick_ctxRange (s : State) : (countTick s).ctxRange = s.ctxRange := rfl
@[simp] theorem countTick_ctxMode (s : State) : (countTick s).ctxMode = s.ctxMode := rfl
@[simp] theorem countTick_dmaActive (s : State) : (countTick s).dmaActive = s.dmaActive := rfl
@[simp] theorem countTick_dmaPtr (s : State) : (countTick s).dmaPtr = s.dmaPtr := rfl
@[simp] theorem countTick_dmaRem (s : State) : (countTick s).dmaRem = s.dmaRem := rfl
@[simp] theorem countTick_dmaDiv (s : State) : (countTick s).dmaDiv = s.dmaDiv := rfl
@[simp] theorem countTick_dmaNext (s : State) : (countTick s).dmaNext = s.dmaNext := rfl
@[simp] theorem countTick_shiftDiv (s : State) : (countTick s).shiftDiv = s.shiftDiv := rfl
@[simp] theorem countTick_live (s : State) : (countTick s).live = s.live := rfl
@[simp] theorem countTick_videoOut (s : State) : (countTick s).videoOut = s.videoOut := rfl
@[simp] theorem countTick_videoEn (s : State) : (countTick s).videoEn = s.videoEn := rfl
@[simp] theorem countTick_slotFn (s : State) : (countTick s).slotFn = s.slotFn := rfl
@[simp] theorem countTick_tags (s : State) : (countTick s).tags = s.tags := rfl
@[simp] theorem countTick_bandRange (s : State) : (countTick s).bandRange = s.bandRange := rfl
@[simp] theorem countTick_bandSlot (s : State) : (countTick s).bandSlot = s.bandSlot := rfl
@[simp] theorem countTick_bandN (s : State) : (countTick s).bandN = s.bandN := rfl
@[simp] theorem countTick_bandPtr (s : State) : (countTick s).bandPtr = s.bandPtr := rfl
@[simp] theorem countTick_mtxOwner (s : State) : (countTick s).mtxOwner = s.mtxOwner := rfl
@[simp] theorem countTick_faulted (s : State) : (countTick s).faulted = s.faulted := rfl
@[simp] theorem countTick_fault (s : State) : (countTick s).fault = s.fault := rfl
@[simp] theorem countTick_faultInfo (s : State) : (countTick s).faultInfo = s.faultInfo := rfl
@[simp] theorem countTick_params (s : State) : (countTick s).params = s.params := rfl
@[simp] theorem countTick_rdata (s : State) : (countTick s).rdata = s.rdata := rfl
@[simp] theorem countTick_sched (s : State) : (countTick s).sched = s.sched := rfl
@[simp] theorem countTick_stepNo (s : State) : (countTick s).stepNo = s.stepNo := rfl
@[simp] theorem countTick_resets (s : State) : (countTick s).resets = s.resets := rfl

@[simp] theorem commitContext_ctx0 (s : State) : (commitContext s).ctx0 =
    if s.work then s.ctx0 else { start := lowHalf s.ctxRange, stop := highHalf s.ctxRange, valid := true } :=
  setShape_ctx0 _ _ _

@[simp] theorem commitContext_ctx1 (s : State) : (commitContext s).ctx1 =
    if s.work then { start := lowHalf s.ctxRange, stop := highHalf s.ctxRange, valid := true } else s.ctx1 :=
  setShape_ctx1 _ _ _

end Sys2Proof.Machine
end

