-- ==== Sys2Proof/Laws/Frames.lean ====
section
/-! SUPPORT. The frame of each shared operation that has cases: the fields it never writes. -/

namespace Sys2Proof.Machine

@[simp] theorem progress_tdCtrl (s : State) : (progress s).tdCtrl = s.tdCtrl := by unfold progress; split <;> (try split) <;> (try split) <;> simp
@[simp] theorem progress_tdH0 (s : State) : (progress s).tdH0 = s.tdH0 := by unfold progress; split <;> (try split) <;> (try split) <;> simp
@[simp] theorem progress_tdH1 (s : State) : (progress s).tdH1 = s.tdH1 := by unfold progress; split <;> (try split) <;> (try split) <;> simp
@[simp] theorem progress_tdH2 (s : State) : (progress s).tdH2 = s.tdH2 := by unfold progress; split <;> (try split) <;> (try split) <;> simp
@[simp] theorem progress_tdV0 (s : State) : (progress s).tdV0 = s.tdV0 := by unfold progress; split <;> (try split) <;> (try split) <;> simp
@[simp] theorem progress_tdV1 (s : State) : (progress s).tdV1 = s.tdV1 := by unfold progress; split <;> (try split) <;> (try split) <;> simp
@[simp] theorem progress_tdV2 (s : State) : (progress s).tdV2 = s.tdV2 := by unfold progress; split <;> (try split) <;> (try split) <;> simp
@[simp] theorem progress_timing (s : State) : (progress s).timing = s.timing := by unfold progress; split <;> (try split) <;> (try split) <;> simp
@[simp] theorem progress_init (s : State) : (progress s).init = s.init := by unfold progress; split <;> (try split) <;> (try split) <;> simp
@[simp] theorem progress_hcount (s : State) : (progress s).hcount = s.hcount := by unfold progress; split <;> (try split) <;> (try split) <;> simp
@[simp] theorem progress_vline (s : State) : (progress s).vline = s.vline := by unfold progress; split <;> (try split) <;> (try split) <;> simp
@[simp] theorem progress_timRun (s : State) : (progress s).timRun = s.timRun := by unfold progress; split <;> (try split) <;> (try split) <;> simp
@[simp] theorem progress_evtMask (s : State) : (progress s).evtMask = s.evtMask := by unfold progress; split <;> (try split) <;> (try split) <;> simp
@[simp] theorem progress_pinsDriven (s : State) : (progress s).pinsDriven = s.pinsDriven := by unfold progress; split <;> (try split) <;> (try split) <;> simp
@[simp] theorem progress_vblCount (s : State) : (progress s).vblCount = s.vblCount := by unfold progress; split <;> (try split) <;> (try split) <;> simp
@[simp] theorem progress_mem (s : State) : (progress s).mem = s.mem := by unfold progress; split <;> (try split) <;> (try split) <;> simp
@[simp] theorem progress_work (s : State) : (progress s).work = s.work := by unfold progress; split <;> (try split) <;> (try split) <;> simp
@[simp] theorem progress_ctx0 (s : State) : (progress s).ctx0 = s.ctx0 := by unfold progress; split <;> (try split) <;> (try split) <;> simp
@[simp] theorem progress_ctx1 (s : State) : (progress s).ctx1 = s.ctx1 := by unfold progress; split <;> (try split) <;> (try split) <;> simp
@[simp] theorem progress_fresh (s : State) : (progress s).fresh = s.fresh := by unfold progress; split <;> (try split) <;> (try split) <;> simp
@[simp] theorem progress_repeatCtr (s : State) : (progress s).repeatCtr = s.repeatCtr := by unfold progress; split <;> (try split) <;> (try split) <;> simp
@[simp] theorem progress_rastBusy (s : State) : (progress s).rastBusy = s.rastBusy := by unfold progress; split <;> (try split) <;> (try split) <;> simp
@[simp] theorem progress_rastLine (s : State) : (progress s).rastLine = s.rastLine := by unfold progress; split <;> (try split) <;> (try split) <;> simp
@[simp] theorem progress_rastSlot (s : State) : (progress s).rastSlot = s.rastSlot := by unfold progress; split <;> (try split) <;> (try split) <;> simp
@[simp] theorem progress_rastFn (s : State) : (progress s).rastFn = s.rastFn := by unfold progress; split <;> (try split) <;> (try split) <;> simp
@[simp] theorem progress_ctxRange (s : State) : (progress s).ctxRange = s.ctxRange := by unfold progress; split <;> (try split) <;> (try split) <;> simp
@[simp] theorem progress_ctxMode (s : State) : (progress s).ctxMode = s.ctxMode := by unfold progress; split <;> (try split) <;> (try split) <;> simp
@[simp] theorem progress_dmaActive (s : State) : (progress s).dmaActive = s.dmaActive := by unfold progress; split <;> (try split) <;> (try split) <;> simp
@[simp] theorem progress_dmaPtr (s : State) : (progress s).dmaPtr = s.dmaPtr := by unfold progress; split <;> (try split) <;> (try split) <;> simp
@[simp] theorem progress_dmaRem (s : State) : (progress s).dmaRem = s.dmaRem := by unfold progress; split <;> (try split) <;> (try split) <;> simp
@[simp] theorem progress_dmaDiv (s : State) : (progress s).dmaDiv = s.dmaDiv := by unfold progress; split <;> (try split) <;> (try split) <;> simp
@[simp] theorem progress_dmaNext (s : State) : (progress s).dmaNext = s.dmaNext := by unfold progress; split <;> (try split) <;> (try split) <;> simp
@[simp] theorem progress_shiftDiv (s : State) : (progress s).shiftDiv = s.shiftDiv := by unfold progress; split <;> (try split) <;> (try split) <;> simp
@[simp] theorem progress_live (s : State) : (progress s).live = s.live := by unfold progress; split <;> (try split) <;> (try split) <;> simp
@[simp] theorem progress_videoOut (s : State) : (progress s).videoOut = s.videoOut := by unfold progress; split <;> (try split) <;> (try split) <;> simp
@[simp] theorem progress_videoEn (s : State) : (progress s).videoEn = s.videoEn := by unfold progress; split <;> (try split) <;> (try split) <;> simp
@[simp] theorem progress_slotFn (s : State) : (progress s).slotFn = s.slotFn := by unfold progress; split <;> (try split) <;> (try split) <;> simp
@[simp] theorem progress_tags (s : State) : (progress s).tags = s.tags := by unfold progress; split <;> (try split) <;> (try split) <;> simp
@[simp] theorem progress_bandRange (s : State) : (progress s).bandRange = s.bandRange := by unfold progress; split <;> (try split) <;> (try split) <;> simp
@[simp] theorem progress_bandSlot (s : State) : (progress s).bandSlot = s.bandSlot := by unfold progress; split <;> (try split) <;> (try split) <;> simp
@[simp] theorem progress_bandN (s : State) : (progress s).bandN = s.bandN := by unfold progress; split <;> (try split) <;> (try split) <;> simp
@[simp] theorem progress_bandPtr (s : State) : (progress s).bandPtr = s.bandPtr := by unfold progress; split <;> (try split) <;> (try split) <;> simp
@[simp] theorem progress_faulted (s : State) : (progress s).faulted = s.faulted := by unfold progress; split <;> (try split) <;> (try split) <;> simp
@[simp] theorem progress_fault (s : State) : (progress s).fault = s.fault := by unfold progress; split <;> (try split) <;> (try split) <;> simp
@[simp] theorem progress_faultInfo (s : State) : (progress s).faultInfo = s.faultInfo := by unfold progress; split <;> (try split) <;> (try split) <;> simp
@[simp] theorem progress_params (s : State) : (progress s).params = s.params := by unfold progress; split <;> (try split) <;> (try split) <;> simp
@[simp] theorem progress_rdata (s : State) : (progress s).rdata = s.rdata := by unfold progress; split <;> (try split) <;> (try split) <;> simp
@[simp] theorem progress_sched (s : State) : (progress s).sched = s.sched := by unfold progress; split <;> (try split) <;> (try split) <;> simp
@[simp] theorem progress_stepNo (s : State) : (progress s).stepNo = s.stepNo := by unfold progress; split <;> (try split) <;> (try split) <;> simp
@[simp] theorem progress_resets (s : State) : (progress s).resets = s.resets := by unfold progress; split <;> (try split) <;> (try split) <;> simp

@[simp] theorem gateCountdown_tdCtrl (s : State) : (gateCountdown s).tdCtrl = s.tdCtrl := by unfold gateCountdown; split <;> (try split) <;> simp
@[simp] theorem gateCountdown_tdH0 (s : State) : (gateCountdown s).tdH0 = s.tdH0 := by unfold gateCountdown; split <;> (try split) <;> simp
@[simp] theorem gateCountdown_tdH1 (s : State) : (gateCountdown s).tdH1 = s.tdH1 := by unfold gateCountdown; split <;> (try split) <;> simp
@[simp] theorem gateCountdown_tdH2 (s : State) : (gateCountdown s).tdH2 = s.tdH2 := by unfold gateCountdown; split <;> (try split) <;> simp
@[simp] theorem gateCountdown_tdV0 (s : State) : (gateCountdown s).tdV0 = s.tdV0 := by unfold gateCountdown; split <;> (try split) <;> simp
@[simp] theorem gateCountdown_tdV1 (s : State) : (gateCountdown s).tdV1 = s.tdV1 := by unfold gateCountdown; split <;> (try split) <;> simp
@[simp] theorem gateCountdown_tdV2 (s : State) : (gateCountdown s).tdV2 = s.tdV2 := by unfold gateCountdown; split <;> (try split) <;> simp
@[simp] theorem gateCountdown_timing (s : State) : (gateCountdown s).timing = s.timing := by unfold gateCountdown; split <;> (try split) <;> simp
@[simp] theorem gateCountdown_init (s : State) : (gateCountdown s).init = s.init := by unfold gateCountdown; split <;> (try split) <;> simp
@[simp] theorem gateCountdown_dstate (s : State) : (gateCountdown s).dstate = s.dstate := by unfold gateCountdown; split <;> (try split) <;> simp
@[simp] theorem gateCountdown_hcount (s : State) : (gateCountdown s).hcount = s.hcount := by unfold gateCountdown; split <;> (try split) <;> simp
@[simp] theorem gateCountdown_vline (s : State) : (gateCountdown s).vline = s.vline := by unfold gateCountdown; split <;> (try split) <;> simp
@[simp] theorem gateCountdown_timRun (s : State) : (gateCountdown s).timRun = s.timRun := by unfold gateCountdown; split <;> (try split) <;> simp
@[simp] theorem gateCountdown_evtMask (s : State) : (gateCountdown s).evtMask = s.evtMask := by unfold gateCountdown; split <;> (try split) <;> simp
@[simp] theorem gateCountdown_pinsDriven (s : State) : (gateCountdown s).pinsDriven = s.pinsDriven := by unfold gateCountdown; split <;> (try split) <;> simp
@[simp] theorem gateCountdown_vblCount (s : State) : (gateCountdown s).vblCount = s.vblCount := by unfold gateCountdown; split <;> (try split) <;> simp
@[simp] theorem gateCountdown_vblFlag (s : State) : (gateCountdown s).vblFlag = s.vblFlag := by unfold gateCountdown; split <;> (try split) <;> simp
@[simp] theorem gateCountdown_mem (s : State) : (gateCountdown s).mem = s.mem := by unfold gateCountdown; split <;> (try split) <;> simp
@[simp] theorem gateCountdown_work (s : State) : (gateCountdown s).work = s.work := by unfold gateCountdown; split <;> (try split) <;> simp
@[simp] theorem gateCountdown_ctx0 (s : State) : (gateCountdown s).ctx0 = s.ctx0 := by unfold gateCountdown; split <;> (try split) <;> simp
@[simp] theorem gateCountdown_ctx1 (s : State) : (gateCountdown s).ctx1 = s.ctx1 := by unfold gateCountdown; split <;> (try split) <;> simp
@[simp] theorem gateCountdown_fresh (s : State) : (gateCountdown s).fresh = s.fresh := by unfold gateCountdown; split <;> (try split) <;> simp
@[simp] theorem gateCountdown_repeatCtr (s : State) : (gateCountdown s).repeatCtr = s.repeatCtr := by unfold gateCountdown; split <;> (try split) <;> simp
@[simp] theorem gateCountdown_rastBusy (s : State) : (gateCountdown s).rastBusy = s.rastBusy := by unfold gateCountdown; split <;> (try split) <;> simp
@[simp] theorem gateCountdown_rastLine (s : State) : (gateCountdown s).rastLine = s.rastLine := by unfold gateCountdown; split <;> (try split) <;> simp
@[simp] theorem gateCountdown_rastSlot (s : State) : (gateCountdown s).rastSlot = s.rastSlot := by unfold gateCountdown; split <;> (try split) <;> simp
@[simp] theorem gateCountdown_rastFn (s : State) : (gateCountdown s).rastFn = s.rastFn := by unfold gateCountdown; split <;> (try split) <;> simp
@[simp] theorem gateCountdown_ctxRange (s : State) : (gateCountdown s).ctxRange = s.ctxRange := by unfold gateCountdown; split <;> (try split) <;> simp
@[simp] theorem gateCountdown_ctxMode (s : State) : (gateCountdown s).ctxMode = s.ctxMode := by unfold gateCountdown; split <;> (try split) <;> simp
@[simp] theorem gateCountdown_dmaActive (s : State) : (gateCountdown s).dmaActive = s.dmaActive := by unfold gateCountdown; split <;> (try split) <;> simp
@[simp] theorem gateCountdown_dmaPtr (s : State) : (gateCountdown s).dmaPtr = s.dmaPtr := by unfold gateCountdown; split <;> (try split) <;> simp
@[simp] theorem gateCountdown_dmaRem (s : State) : (gateCountdown s).dmaRem = s.dmaRem := by unfold gateCountdown; split <;> (try split) <;> simp
@[simp] theorem gateCountdown_dmaDiv (s : State) : (gateCountdown s).dmaDiv = s.dmaDiv := by unfold gateCountdown; split <;> (try split) <;> simp
@[simp] theorem gateCountdown_dmaNext (s : State) : (gateCountdown s).dmaNext = s.dmaNext := by unfold gateCountdown; split <;> (try split) <;> simp
@[simp] theorem gateCountdown_shiftDiv (s : State) : (gateCountdown s).shiftDiv = s.shiftDiv := by unfold gateCountdown; split <;> (try split) <;> simp
@[simp] theorem gateCountdown_live (s : State) : (gateCountdown s).live = s.live := by unfold gateCountdown; split <;> (try split) <;> simp
@[simp] theorem gateCountdown_videoOut (s : State) : (gateCountdown s).videoOut = s.videoOut := by unfold gateCountdown; split <;> (try split) <;> simp
@[simp] theorem gateCountdown_slotFn (s : State) : (gateCountdown s).slotFn = s.slotFn := by unfold gateCountdown; split <;> (try split) <;> simp
@[simp] theorem gateCountdown_tags (s : State) : (gateCountdown s).tags = s.tags := by unfold gateCountdown; split <;> (try split) <;> simp
@[simp] theorem gateCountdown_bandRange (s : State) : (gateCountdown s).bandRange = s.bandRange := by unfold gateCountdown; split <;> (try split) <;> simp
@[simp] theorem gateCountdown_bandSlot (s : State) : (gateCountdown s).bandSlot = s.bandSlot := by unfold gateCountdown; split <;> (try split) <;> simp
@[simp] theorem gateCountdown_bandN (s : State) : (gateCountdown s).bandN = s.bandN := by unfold gateCountdown; split <;> (try split) <;> simp
@[simp] theorem gateCountdown_bandPtr (s : State) : (gateCountdown s).bandPtr = s.bandPtr := by unfold gateCountdown; split <;> (try split) <;> simp
@[simp] theorem gateCountdown_faulted (s : State) : (gateCountdown s).faulted = s.faulted := by unfold gateCountdown; split <;> (try split) <;> simp
@[simp] theorem gateCountdown_fault (s : State) : (gateCountdown s).fault = s.fault := by unfold gateCountdown; split <;> (try split) <;> simp
@[simp] theorem gateCountdown_faultInfo (s : State) : (gateCountdown s).faultInfo = s.faultInfo := by unfold gateCountdown; split <;> (try split) <;> simp
@[simp] theorem gateCountdown_params (s : State) : (gateCountdown s).params = s.params := by unfold gateCountdown; split <;> (try split) <;> simp
@[simp] theorem gateCountdown_rdata (s : State) : (gateCountdown s).rdata = s.rdata := by unfold gateCountdown; split <;> (try split) <;> simp
@[simp] theorem gateCountdown_sched (s : State) : (gateCountdown s).sched = s.sched := by unfold gateCountdown; split <;> (try split) <;> simp
@[simp] theorem gateCountdown_stepNo (s : State) : (gateCountdown s).stepNo = s.stepNo := by unfold gateCountdown; split <;> (try split) <;> simp
@[simp] theorem gateCountdown_resets (s : State) : (gateCountdown s).resets = s.resets := by unfold gateCountdown; split <;> (try split) <;> simp

@[simp] theorem swapBuffers_tdCtrl (s : State) : (swapBuffers s).tdCtrl = s.tdCtrl := by unfold swapBuffers; split <;> rfl
@[simp] theorem swapBuffers_tdH0 (s : State) : (swapBuffers s).tdH0 = s.tdH0 := by unfold swapBuffers; split <;> rfl
@[simp] theorem swapBuffers_tdH1 (s : State) : (swapBuffers s).tdH1 = s.tdH1 := by unfold swapBuffers; split <;> rfl
@[simp] theorem swapBuffers_tdH2 (s : State) : (swapBuffers s).tdH2 = s.tdH2 := by unfold swapBuffers; split <;> rfl
@[simp] theorem swapBuffers_tdV0 (s : State) : (swapBuffers s).tdV0 = s.tdV0 := by unfold swapBuffers; split <;> rfl
@[simp] theorem swapBuffers_tdV1 (s : State) : (swapBuffers s).tdV1 = s.tdV1 := by unfold swapBuffers; split <;> rfl
@[simp] theorem swapBuffers_tdV2 (s : State) : (swapBuffers s).tdV2 = s.tdV2 := by unfold swapBuffers; split <;> rfl
@[simp] theorem swapBuffers_timing (s : State) : (swapBuffers s).timing = s.timing := by unfold swapBuffers; split <;> rfl
@[simp] theorem swapBuffers_init (s : State) : (swapBuffers s).init = s.init := by unfold swapBuffers; split <;> rfl
@[simp] theorem swapBuffers_dstate (s : State) : (swapBuffers s).dstate = s.dstate := by unfold swapBuffers; split <;> rfl
@[simp] theorem swapBuffers_hop (s : State) : (swapBuffers s).hop = s.hop := by unfold swapBuffers; split <;> rfl
@[simp] theorem swapBuffers_result (s : State) : (swapBuffers s).result = s.result := by unfold swapBuffers; split <;> rfl
@[simp] theorem swapBuffers_hcount (s : State) : (swapBuffers s).hcount = s.hcount := by unfold swapBuffers; split <;> rfl
@[simp] theorem swapBuffers_vline (s : State) : (swapBuffers s).vline = s.vline := by unfold swapBuffers; split <;> rfl
@[simp] theorem swapBuffers_timRun (s : State) : (swapBuffers s).timRun = s.timRun := by unfold swapBuffers; split <;> rfl
@[simp] theorem swapBuffers_evtMask (s : State) : (swapBuffers s).evtMask = s.evtMask := by unfold swapBuffers; split <;> rfl
@[simp] theorem swapBuffers_pinsDriven (s : State) : (swapBuffers s).pinsDriven = s.pinsDriven := by unfold swapBuffers; split <;> rfl
@[simp] theorem swapBuffers_vblCount (s : State) : (swapBuffers s).vblCount = s.vblCount := by unfold swapBuffers; split <;> rfl
@[simp] theorem swapBuffers_vblFlag (s : State) : (swapBuffers s).vblFlag = s.vblFlag := by unfold swapBuffers; split <;> rfl
@[simp] theorem swapBuffers_mem (s : State) : (swapBuffers s).mem = s.mem := by unfold swapBuffers; split <;> rfl
@[simp] theorem swapBuffers_ctx0 (s : State) : (swapBuffers s).ctx0 = s.ctx0 := by unfold swapBuffers; split <;> rfl
@[simp] theorem swapBuffers_ctx1 (s : State) : (swapBuffers s).ctx1 = s.ctx1 := by unfold swapBuffers; split <;> rfl
@[simp] theorem swapBuffers_repeatCtr (s : State) : (swapBuffers s).repeatCtr = s.repeatCtr := by unfold swapBuffers; split <;> rfl
@[simp] theorem swapBuffers_rastBusy (s : State) : (swapBuffers s).rastBusy = s.rastBusy := by unfold swapBuffers; split <;> rfl
@[simp] theorem swapBuffers_rastLine (s : State) : (swapBuffers s).rastLine = s.rastLine := by unfold swapBuffers; split <;> rfl
@[simp] theorem swapBuffers_rastSlot (s : State) : (swapBuffers s).rastSlot = s.rastSlot := by unfold swapBuffers; split <;> rfl
@[simp] theorem swapBuffers_rastFn (s : State) : (swapBuffers s).rastFn = s.rastFn := by unfold swapBuffers; split <;> rfl
@[simp] theorem swapBuffers_ctxRange (s : State) : (swapBuffers s).ctxRange = s.ctxRange := by unfold swapBuffers; split <;> rfl
@[simp] theorem swapBuffers_ctxMode (s : State) : (swapBuffers s).ctxMode = s.ctxMode := by unfold swapBuffers; split <;> rfl
@[simp] theorem swapBuffers_dmaActive (s : State) : (swapBuffers s).dmaActive = s.dmaActive := by unfold swapBuffers; split <;> rfl
@[simp] theorem swapBuffers_dmaPtr (s : State) : (swapBuffers s).dmaPtr = s.dmaPtr := by unfold swapBuffers; split <;> rfl
@[simp] theorem swapBuffers_dmaRem (s : State) : (swapBuffers s).dmaRem = s.dmaRem := by unfold swapBuffers; split <;> rfl
@[simp] theorem swapBuffers_dmaDiv (s : State) : (swapBuffers s).dmaDiv = s.dmaDiv := by unfold swapBuffers; split <;> rfl
@[simp] theorem swapBuffers_dmaNext (s : State) : (swapBuffers s).dmaNext = s.dmaNext := by unfold swapBuffers; split <;> rfl
@[simp] theorem swapBuffers_shiftDiv (s : State) : (swapBuffers s).shiftDiv = s.shiftDiv := by unfold swapBuffers; split <;> rfl
@[simp] theorem swapBuffers_live (s : State) : (swapBuffers s).live = s.live := by unfold swapBuffers; split <;> rfl
@[simp] theorem swapBuffers_videoOut (s : State) : (swapBuffers s).videoOut = s.videoOut := by unfold swapBuffers; split <;> rfl
@[simp] theorem swapBuffers_videoEn (s : State) : (swapBuffers s).videoEn = s.videoEn := by unfold swapBuffers; split <;> rfl
@[simp] theorem swapBuffers_slotFn (s : State) : (swapBuffers s).slotFn = s.slotFn := by unfold swapBuffers; split <;> rfl
@[simp] theorem swapBuffers_tags (s : State) : (swapBuffers s).tags = s.tags := by unfold swapBuffers; split <;> rfl
@[simp] theorem swapBuffers_bandRange (s : State) : (swapBuffers s).bandRange = s.bandRange := by unfold swapBuffers; split <;> rfl
@[simp] theorem swapBuffers_bandSlot (s : State) : (swapBuffers s).bandSlot = s.bandSlot := by unfold swapBuffers; split <;> rfl
@[simp] theorem swapBuffers_bandN (s : State) : (swapBuffers s).bandN = s.bandN := by unfold swapBuffers; split <;> rfl
@[simp] theorem swapBuffers_bandPtr (s : State) : (swapBuffers s).bandPtr = s.bandPtr := by unfold swapBuffers; split <;> rfl
@[simp] theorem swapBuffers_mtxOwner (s : State) : (swapBuffers s).mtxOwner = s.mtxOwner := by unfold swapBuffers; split <;> rfl
@[simp] theorem swapBuffers_faulted (s : State) : (swapBuffers s).faulted = s.faulted := by unfold swapBuffers; split <;> rfl
@[simp] theorem swapBuffers_fault (s : State) : (swapBuffers s).fault = s.fault := by unfold swapBuffers; split <;> rfl
@[simp] theorem swapBuffers_faultInfo (s : State) : (swapBuffers s).faultInfo = s.faultInfo := by unfold swapBuffers; split <;> rfl
@[simp] theorem swapBuffers_params (s : State) : (swapBuffers s).params = s.params := by unfold swapBuffers; split <;> rfl
@[simp] theorem swapBuffers_rdata (s : State) : (swapBuffers s).rdata = s.rdata := by unfold swapBuffers; split <;> rfl
@[simp] theorem swapBuffers_sched (s : State) : (swapBuffers s).sched = s.sched := by unfold swapBuffers; split <;> rfl
@[simp] theorem swapBuffers_stepNo (s : State) : (swapBuffers s).stepNo = s.stepNo := by unfold swapBuffers; split <;> rfl
@[simp] theorem swapBuffers_resets (s : State) : (swapBuffers s).resets = s.resets := by unfold swapBuffers; split <;> rfl

@[simp] theorem armDma_tdCtrl (s : State) : (armDma s).tdCtrl = s.tdCtrl := by unfold armDma; dsimp only; split <;> rfl
@[simp] theorem armDma_tdH0 (s : State) : (armDma s).tdH0 = s.tdH0 := by unfold armDma; dsimp only; split <;> rfl
@[simp] theorem armDma_tdH1 (s : State) : (armDma s).tdH1 = s.tdH1 := by unfold armDma; dsimp only; split <;> rfl
@[simp] theorem armDma_tdH2 (s : State) : (armDma s).tdH2 = s.tdH2 := by unfold armDma; dsimp only; split <;> rfl
@[simp] theorem armDma_tdV0 (s : State) : (armDma s).tdV0 = s.tdV0 := by unfold armDma; dsimp only; split <;> rfl
@[simp] theorem armDma_tdV1 (s : State) : (armDma s).tdV1 = s.tdV1 := by unfold armDma; dsimp only; split <;> rfl
@[simp] theorem armDma_tdV2 (s : State) : (armDma s).tdV2 = s.tdV2 := by unfold armDma; dsimp only; split <;> rfl
@[simp] theorem armDma_timing (s : State) : (armDma s).timing = s.timing := by unfold armDma; dsimp only; split <;> rfl
@[simp] theorem armDma_init (s : State) : (armDma s).init = s.init := by unfold armDma; dsimp only; split <;> rfl
@[simp] theorem armDma_dstate (s : State) : (armDma s).dstate = s.dstate := by unfold armDma; dsimp only; split <;> rfl
@[simp] theorem armDma_hop (s : State) : (armDma s).hop = s.hop := by unfold armDma; dsimp only; split <;> rfl
@[simp] theorem armDma_result (s : State) : (armDma s).result = s.result := by unfold armDma; dsimp only; split <;> rfl
@[simp] theorem armDma_hcount (s : State) : (armDma s).hcount = s.hcount := by unfold armDma; dsimp only; split <;> rfl
@[simp] theorem armDma_vline (s : State) : (armDma s).vline = s.vline := by unfold armDma; dsimp only; split <;> rfl
@[simp] theorem armDma_timRun (s : State) : (armDma s).timRun = s.timRun := by unfold armDma; dsimp only; split <;> rfl
@[simp] theorem armDma_evtMask (s : State) : (armDma s).evtMask = s.evtMask := by unfold armDma; dsimp only; split <;> rfl
@[simp] theorem armDma_pinsDriven (s : State) : (armDma s).pinsDriven = s.pinsDriven := by unfold armDma; dsimp only; split <;> rfl
@[simp] theorem armDma_vblCount (s : State) : (armDma s).vblCount = s.vblCount := by unfold armDma; dsimp only; split <;> rfl
@[simp] theorem armDma_vblFlag (s : State) : (armDma s).vblFlag = s.vblFlag := by unfold armDma; dsimp only; split <;> rfl
@[simp] theorem armDma_mem (s : State) : (armDma s).mem = s.mem := by unfold armDma; dsimp only; split <;> rfl
@[simp] theorem armDma_work (s : State) : (armDma s).work = s.work := by unfold armDma; dsimp only; split <;> rfl
@[simp] theorem armDma_ctx0 (s : State) : (armDma s).ctx0 = s.ctx0 := by unfold armDma; dsimp only; split <;> rfl
@[simp] theorem armDma_ctx1 (s : State) : (armDma s).ctx1 = s.ctx1 := by unfold armDma; dsimp only; split <;> rfl
@[simp] theorem armDma_fresh (s : State) : (armDma s).fresh = s.fresh := by unfold armDma; dsimp only; split <;> rfl
@[simp] theorem armDma_repeatCtr (s : State) : (armDma s).repeatCtr = s.repeatCtr := by unfold armDma; dsimp only; split <;> rfl
@[simp] theorem armDma_rastBusy (s : State) : (armDma s).rastBusy = s.rastBusy := by unfold armDma; dsimp only; split <;> rfl
@[simp] theorem armDma_rastLine (s : State) : (armDma s).rastLine = s.rastLine := by unfold armDma; dsimp only; split <;> rfl
@[simp] theorem armDma_rastSlot (s : State) : (armDma s).rastSlot = s.rastSlot := by unfold armDma; dsimp only; split <;> rfl
@[simp] theorem armDma_rastFn (s : State) : (armDma s).rastFn = s.rastFn := by unfold armDma; dsimp only; split <;> rfl
@[simp] theorem armDma_ctxRange (s : State) : (armDma s).ctxRange = s.ctxRange := by unfold armDma; dsimp only; split <;> rfl
@[simp] theorem armDma_ctxMode (s : State) : (armDma s).ctxMode = s.ctxMode := by unfold armDma; dsimp only; split <;> rfl
@[simp] theorem armDma_shiftDiv (s : State) : (armDma s).shiftDiv = s.shiftDiv := by unfold armDma; dsimp only; split <;> rfl
@[simp] theorem armDma_live (s : State) : (armDma s).live = s.live := by unfold armDma; dsimp only; split <;> rfl
@[simp] theorem armDma_videoOut (s : State) : (armDma s).videoOut = s.videoOut := by unfold armDma; dsimp only; split <;> rfl
@[simp] theorem armDma_videoEn (s : State) : (armDma s).videoEn = s.videoEn := by unfold armDma; dsimp only; split <;> rfl
@[simp] theorem armDma_slotFn (s : State) : (armDma s).slotFn = s.slotFn := by unfold armDma; dsimp only; split <;> rfl
@[simp] theorem armDma_tags (s : State) : (armDma s).tags = s.tags := by unfold armDma; dsimp only; split <;> rfl
@[simp] theorem armDma_bandRange (s : State) : (armDma s).bandRange = s.bandRange := by unfold armDma; dsimp only; split <;> rfl
@[simp] theorem armDma_bandSlot (s : State) : (armDma s).bandSlot = s.bandSlot := by unfold armDma; dsimp only; split <;> rfl
@[simp] theorem armDma_bandN (s : State) : (armDma s).bandN = s.bandN := by unfold armDma; dsimp only; split <;> rfl
@[simp] theorem armDma_bandPtr (s : State) : (armDma s).bandPtr = s.bandPtr := by unfold armDma; dsimp only; split <;> rfl
@[simp] theorem armDma_mtxOwner (s : State) : (armDma s).mtxOwner = s.mtxOwner := by unfold armDma; dsimp only; split <;> rfl
@[simp] theorem armDma_faulted (s : State) : (armDma s).faulted = s.faulted := by unfold armDma; dsimp only; split <;> rfl
@[simp] theorem armDma_fault (s : State) : (armDma s).fault = s.fault := by unfold armDma; dsimp only; split <;> rfl
@[simp] theorem armDma_faultInfo (s : State) : (armDma s).faultInfo = s.faultInfo := by unfold armDma; dsimp only; split <;> rfl
@[simp] theorem armDma_params (s : State) : (armDma s).params = s.params := by unfold armDma; dsimp only; split <;> rfl
@[simp] theorem armDma_rdata (s : State) : (armDma s).rdata = s.rdata := by unfold armDma; dsimp only; split <;> rfl
@[simp] theorem armDma_sched (s : State) : (armDma s).sched = s.sched := by unfold armDma; dsimp only; split <;> rfl
@[simp] theorem armDma_stepNo (s : State) : (armDma s).stepNo = s.stepNo := by unfold armDma; dsimp only; split <;> rfl
@[simp] theorem armDma_resets (s : State) : (armDma s).resets = s.resets := by unfold armDma; dsimp only; split <;> rfl

@[simp] theorem savEvent_tdCtrl (s : State) : (savEvent s).tdCtrl = s.tdCtrl := by unfold savEvent; split <;> (try split) <;> (try split) <;> simp
@[simp] theorem savEvent_tdH0 (s : State) : (savEvent s).tdH0 = s.tdH0 := by unfold savEvent; split <;> (try split) <;> (try split) <;> simp
@[simp] theorem savEvent_tdH1 (s : State) : (savEvent s).tdH1 = s.tdH1 := by unfold savEvent; split <;> (try split) <;> (try split) <;> simp
@[simp] theorem savEvent_tdH2 (s : State) : (savEvent s).tdH2 = s.tdH2 := by unfold savEvent; split <;> (try split) <;> (try split) <;> simp
@[simp] theorem savEvent_tdV0 (s : State) : (savEvent s).tdV0 = s.tdV0 := by unfold savEvent; split <;> (try split) <;> (try split) <;> simp
@[simp] theorem savEvent_tdV1 (s : State) : (savEvent s).tdV1 = s.tdV1 := by unfold savEvent; split <;> (try split) <;> (try split) <;> simp
@[simp] theorem savEvent_tdV2 (s : State) : (savEvent s).tdV2 = s.tdV2 := by unfold savEvent; split <;> (try split) <;> (try split) <;> simp
@[simp] theorem savEvent_timing (s : State) : (savEvent s).timing = s.timing := by unfold savEvent; split <;> (try split) <;> (try split) <;> simp
@[simp] theorem savEvent_init (s : State) : (savEvent s).init = s.init := by unfold savEvent; split <;> (try split) <;> (try split) <;> simp
@[simp] theorem savEvent_dstate (s : State) : (savEvent s).dstate = s.dstate := by unfold savEvent; split <;> (try split) <;> (try split) <;> simp
@[simp] theorem savEvent_hop (s : State) : (savEvent s).hop = s.hop := by unfold savEvent; split <;> (try split) <;> (try split) <;> simp
@[simp] theorem savEvent_result (s : State) : (savEvent s).result = s.result := by unfold savEvent; split <;> (try split) <;> (try split) <;> simp
@[simp] theorem savEvent_hcount (s : State) : (savEvent s).hcount = s.hcount := by unfold savEvent; split <;> (try split) <;> (try split) <;> simp
@[simp] theorem savEvent_vline (s : State) : (savEvent s).vline = s.vline := by unfold savEvent; split <;> (try split) <;> (try split) <;> simp
@[simp] theorem savEvent_timRun (s : State) : (savEvent s).timRun = s.timRun := by unfold savEvent; split <;> (try split) <;> (try split) <;> simp
@[simp] theorem savEvent_evtMask (s : State) : (savEvent s).evtMask = s.evtMask := by unfold savEvent; split <;> (try split) <;> (try split) <;> simp
@[simp] theorem savEvent_pinsDriven (s : State) : (savEvent s).pinsDriven = s.pinsDriven := by unfold savEvent; split <;> (try split) <;> (try split) <;> simp
@[simp] theorem savEvent_vblCount (s : State) : (savEvent s).vblCount = s.vblCount := by unfold savEvent; split <;> (try split) <;> (try split) <;> simp
@[simp] theorem savEvent_vblFlag (s : State) : (savEvent s).vblFlag = s.vblFlag := by unfold savEvent; split <;> (try split) <;> (try split) <;> simp
@[simp] theorem savEvent_mem (s : State) : (savEvent s).mem = s.mem := by unfold savEvent; split <;> (try split) <;> (try split) <;> simp
@[simp] theorem savEvent_ctx0 (s : State) : (savEvent s).ctx0 = s.ctx0 := by unfold savEvent; split <;> (try split) <;> (try split) <;> simp
@[simp] theorem savEvent_ctx1 (s : State) : (savEvent s).ctx1 = s.ctx1 := by unfold savEvent; split <;> (try split) <;> (try split) <;> simp
@[simp] theorem savEvent_repeatCtr (s : State) : (savEvent s).repeatCtr = s.repeatCtr := by unfold savEvent; split <;> (try split) <;> (try split) <;> simp
@[simp] theorem savEvent_rastBusy (s : State) : (savEvent s).rastBusy = s.rastBusy := by unfold savEvent; split <;> (try split) <;> (try split) <;> simp
@[simp] theorem savEvent_rastLine (s : State) : (savEvent s).rastLine = s.rastLine := by unfold savEvent; split <;> (try split) <;> (try split) <;> simp
@[simp] theorem savEvent_rastSlot (s : State) : (savEvent s).rastSlot = s.rastSlot := by unfold savEvent; split <;> (try split) <;> (try split) <;> simp
@[simp] theorem savEvent_rastFn (s : State) : (savEvent s).rastFn = s.rastFn := by unfold savEvent; split <;> (try split) <;> (try split) <;> simp
@[simp] theorem savEvent_ctxRange (s : State) : (savEvent s).ctxRange = s.ctxRange := by unfold savEvent; split <;> (try split) <;> (try split) <;> simp
@[simp] theorem savEvent_ctxMode (s : State) : (savEvent s).ctxMode = s.ctxMode := by unfold savEvent; split <;> (try split) <;> (try split) <;> simp
@[simp] theorem savEvent_shiftDiv (s : State) : (savEvent s).shiftDiv = s.shiftDiv := by unfold savEvent; split <;> (try split) <;> (try split) <;> simp
@[simp] theorem savEvent_live (s : State) : (savEvent s).live = s.live := by unfold savEvent; split <;> (try split) <;> (try split) <;> simp
@[simp] theorem savEvent_videoEn (s : State) : (savEvent s).videoEn = s.videoEn := by unfold savEvent; split <;> (try split) <;> (try split) <;> simp
@[simp] theorem savEvent_slotFn (s : State) : (savEvent s).slotFn = s.slotFn := by unfold savEvent; split <;> (try split) <;> (try split) <;> simp
@[simp] theorem savEvent_tags (s : State) : (savEvent s).tags = s.tags := by unfold savEvent; split <;> (try split) <;> (try split) <;> simp
@[simp] theorem savEvent_bandRange (s : State) : (savEvent s).bandRange = s.bandRange := by unfold savEvent; split <;> (try split) <;> (try split) <;> simp
@[simp] theorem savEvent_bandSlot (s : State) : (savEvent s).bandSlot = s.bandSlot := by unfold savEvent; split <;> (try split) <;> (try split) <;> simp
@[simp] theorem savEvent_bandN (s : State) : (savEvent s).bandN = s.bandN := by unfold savEvent; split <;> (try split) <;> (try split) <;> simp
@[simp] theorem savEvent_bandPtr (s : State) : (savEvent s).bandPtr = s.bandPtr := by unfold savEvent; split <;> (try split) <;> (try split) <;> simp
@[simp] theorem savEvent_mtxOwner (s : State) : (savEvent s).mtxOwner = s.mtxOwner := by unfold savEvent; split <;> (try split) <;> (try split) <;> simp
@[simp] theorem savEvent_params (s : State) : (savEvent s).params = s.params := by unfold savEvent; split <;> (try split) <;> (try split) <;> simp
@[simp] theorem savEvent_rdata (s : State) : (savEvent s).rdata = s.rdata := by unfold savEvent; split <;> (try split) <;> (try split) <;> simp
@[simp] theorem savEvent_sched (s : State) : (savEvent s).sched = s.sched := by unfold savEvent; split <;> (try split) <;> (try split) <;> simp
@[simp] theorem savEvent_stepNo (s : State) : (savEvent s).stepNo = s.stepNo := by unfold savEvent; split <;> (try split) <;> (try split) <;> simp
@[simp] theorem savEvent_resets (s : State) : (savEvent s).resets = s.resets := by unfold savEvent; split <;> (try split) <;> (try split) <;> simp

@[simp] theorem rastEvent_tdCtrl (r : Half) (k : BitVec 8) (s : State) : (rastEvent r k s).tdCtrl = s.tdCtrl := by unfold rastEvent; split <;> rfl
@[simp] theorem rastEvent_tdH0 (r : Half) (k : BitVec 8) (s : State) : (rastEvent r k s).tdH0 = s.tdH0 := by unfold rastEvent; split <;> rfl
@[simp] theorem rastEvent_tdH1 (r : Half) (k : BitVec 8) (s : State) : (rastEvent r k s).tdH1 = s.tdH1 := by unfold rastEvent; split <;> rfl
@[simp] theorem rastEvent_tdH2 (r : Half) (k : BitVec 8) (s : State) : (rastEvent r k s).tdH2 = s.tdH2 := by unfold rastEvent; split <;> rfl
@[simp] theorem rastEvent_tdV0 (r : Half) (k : BitVec 8) (s : State) : (rastEvent r k s).tdV0 = s.tdV0 := by unfold rastEvent; split <;> rfl
@[simp] theorem rastEvent_tdV1 (r : Half) (k : BitVec 8) (s : State) : (rastEvent r k s).tdV1 = s.tdV1 := by unfold rastEvent; split <;> rfl
@[simp] theorem rastEvent_tdV2 (r : Half) (k : BitVec 8) (s : State) : (rastEvent r k s).tdV2 = s.tdV2 := by unfold rastEvent; split <;> rfl
@[simp] theorem rastEvent_timing (r : Half) (k : BitVec 8) (s : State) : (rastEvent r k s).timing = s.timing := by unfold rastEvent; split <;> rfl
@[simp] theorem rastEvent_init (r : Half) (k : BitVec 8) (s : State) : (rastEvent r k s).init = s.init := by unfold rastEvent; split <;> rfl
@[simp] theorem rastEvent_dstate (r : Half) (k : BitVec 8) (s : State) : (rastEvent r k s).dstate = s.dstate := by unfold rastEvent; split <;> rfl
@[simp] theorem rastEvent_hop (r : Half) (k : BitVec 8) (s : State) : (rastEvent r k s).hop = s.hop := by unfold rastEvent; split <;> rfl
@[simp] theorem rastEvent_result (r : Half) (k : BitVec 8) (s : State) : (rastEvent r k s).result = s.result := by unfold rastEvent; split <;> rfl
@[simp] theorem rastEvent_hcount (r : Half) (k : BitVec 8) (s : State) : (rastEvent r k s).hcount = s.hcount := by unfold rastEvent; split <;> rfl
@[simp] theorem rastEvent_vline (r : Half) (k : BitVec 8) (s : State) : (rastEvent r k s).vline = s.vline := by unfold rastEvent; split <;> rfl
@[simp] theorem rastEvent_timRun (r : Half) (k : BitVec 8) (s : State) : (rastEvent r k s).timRun = s.timRun := by unfold rastEvent; split <;> rfl
@[simp] theorem rastEvent_evtMask (r : Half) (k : BitVec 8) (s : State) : (rastEvent r k s).evtMask = s.evtMask := by unfold rastEvent; split <;> rfl
@[simp] theorem rastEvent_pinsDriven (r : Half) (k : BitVec 8) (s : State) : (rastEvent r k s).pinsDriven = s.pinsDriven := by unfold rastEvent; split <;> rfl
@[simp] theorem rastEvent_vblCount (r : Half) (k : BitVec 8) (s : State) : (rastEvent r k s).vblCount = s.vblCount := by unfold rastEvent; split <;> rfl
@[simp] theorem rastEvent_vblFlag (r : Half) (k : BitVec 8) (s : State) : (rastEvent r k s).vblFlag = s.vblFlag := by unfold rastEvent; split <;> rfl
@[simp] theorem rastEvent_mem (r : Half) (k : BitVec 8) (s : State) : (rastEvent r k s).mem = s.mem := by unfold rastEvent; split <;> rfl
@[simp] theorem rastEvent_work (r : Half) (k : BitVec 8) (s : State) : (rastEvent r k s).work = s.work := by unfold rastEvent; split <;> rfl
@[simp] theorem rastEvent_ctx0 (r : Half) (k : BitVec 8) (s : State) : (rastEvent r k s).ctx0 = s.ctx0 := by unfold rastEvent; split <;> rfl
@[simp] theorem rastEvent_ctx1 (r : Half) (k : BitVec 8) (s : State) : (rastEvent r k s).ctx1 = s.ctx1 := by unfold rastEvent; split <;> rfl
@[simp] theorem rastEvent_fresh (r : Half) (k : BitVec 8) (s : State) : (rastEvent r k s).fresh = s.fresh := by unfold rastEvent; split <;> rfl
@[simp] theorem rastEvent_repeatCtr (r : Half) (k : BitVec 8) (s : State) : (rastEvent r k s).repeatCtr = s.repeatCtr := by unfold rastEvent; split <;> rfl
@[simp] theorem rastEvent_dmaPtr (r : Half) (k : BitVec 8) (s : State) : (rastEvent r k s).dmaPtr = s.dmaPtr := by unfold rastEvent; split <;> rfl
@[simp] theorem rastEvent_dmaRem (r : Half) (k : BitVec 8) (s : State) : (rastEvent r k s).dmaRem = s.dmaRem := by unfold rastEvent; split <;> rfl
@[simp] theorem rastEvent_dmaDiv (r : Half) (k : BitVec 8) (s : State) : (rastEvent r k s).dmaDiv = s.dmaDiv := by unfold rastEvent; split <;> rfl
@[simp] theorem rastEvent_dmaNext (r : Half) (k : BitVec 8) (s : State) : (rastEvent r k s).dmaNext = s.dmaNext := by unfold rastEvent; split <;> rfl
@[simp] theorem rastEvent_shiftDiv (r : Half) (k : BitVec 8) (s : State) : (rastEvent r k s).shiftDiv = s.shiftDiv := by unfold rastEvent; split <;> rfl
@[simp] theorem rastEvent_live (r : Half) (k : BitVec 8) (s : State) : (rastEvent r k s).live = s.live := by unfold rastEvent; split <;> rfl
@[simp] theorem rastEvent_videoEn (r : Half) (k : BitVec 8) (s : State) : (rastEvent r k s).videoEn = s.videoEn := by unfold rastEvent; split <;> rfl
@[simp] theorem rastEvent_slotFn (r : Half) (k : BitVec 8) (s : State) : (rastEvent r k s).slotFn = s.slotFn := by unfold rastEvent; split <;> rfl
@[simp] theorem rastEvent_tags (r : Half) (k : BitVec 8) (s : State) : (rastEvent r k s).tags = s.tags := by unfold rastEvent; split <;> rfl
@[simp] theorem rastEvent_bandRange (r : Half) (k : BitVec 8) (s : State) : (rastEvent r k s).bandRange = s.bandRange := by unfold rastEvent; split <;> rfl
@[simp] theorem rastEvent_bandSlot (r : Half) (k : BitVec 8) (s : State) : (rastEvent r k s).bandSlot = s.bandSlot := by unfold rastEvent; split <;> rfl
@[simp] theorem rastEvent_bandN (r : Half) (k : BitVec 8) (s : State) : (rastEvent r k s).bandN = s.bandN := by unfold rastEvent; split <;> rfl
@[simp] theorem rastEvent_bandPtr (r : Half) (k : BitVec 8) (s : State) : (rastEvent r k s).bandPtr = s.bandPtr := by unfold rastEvent; split <;> rfl
@[simp] theorem rastEvent_mtxOwner (r : Half) (k : BitVec 8) (s : State) : (rastEvent r k s).mtxOwner = s.mtxOwner := by unfold rastEvent; split <;> rfl
@[simp] theorem rastEvent_params (r : Half) (k : BitVec 8) (s : State) : (rastEvent r k s).params = s.params := by unfold rastEvent; split <;> rfl
@[simp] theorem rastEvent_rdata (r : Half) (k : BitVec 8) (s : State) : (rastEvent r k s).rdata = s.rdata := by unfold rastEvent; split <;> rfl
@[simp] theorem rastEvent_sched (r : Half) (k : BitVec 8) (s : State) : (rastEvent r k s).sched = s.sched := by unfold rastEvent; split <;> rfl
@[simp] theorem rastEvent_stepNo (r : Half) (k : BitVec 8) (s : State) : (rastEvent r k s).stepNo = s.stepNo := by unfold rastEvent; split <;> rfl
@[simp] theorem rastEvent_resets (r : Half) (k : BitVec 8) (s : State) : (rastEvent r k s).resets = s.resets := by unfold rastEvent; split <;> rfl

@[simp] theorem frameBoundary_tdCtrl (s : State) : (frameBoundary s).tdCtrl = s.tdCtrl := by unfold frameBoundary; split <;> (try split) <;> rfl
@[simp] theorem frameBoundary_tdH0 (s : State) : (frameBoundary s).tdH0 = s.tdH0 := by unfold frameBoundary; split <;> (try split) <;> rfl
@[simp] theorem frameBoundary_tdH1 (s : State) : (frameBoundary s).tdH1 = s.tdH1 := by unfold frameBoundary; split <;> (try split) <;> rfl
@[simp] theorem frameBoundary_tdH2 (s : State) : (frameBoundary s).tdH2 = s.tdH2 := by unfold frameBoundary; split <;> (try split) <;> rfl
@[simp] theorem frameBoundary_tdV0 (s : State) : (frameBoundary s).tdV0 = s.tdV0 := by unfold frameBoundary; split <;> (try split) <;> rfl
@[simp] theorem frameBoundary_tdV1 (s : State) : (frameBoundary s).tdV1 = s.tdV1 := by unfold frameBoundary; split <;> (try split) <;> rfl
@[simp] theorem frameBoundary_tdV2 (s : State) : (frameBoundary s).tdV2 = s.tdV2 := by unfold frameBoundary; split <;> (try split) <;> rfl
@[simp] theorem frameBoundary_timing (s : State) : (frameBoundary s).timing = s.timing := by unfold frameBoundary; split <;> (try split) <;> rfl
@[simp] theorem frameBoundary_init (s : State) : (frameBoundary s).init = s.init := by unfold frameBoundary; split <;> (try split) <;> rfl
@[simp] theorem frameBoundary_dstate (s : State) : (frameBoundary s).dstate = s.dstate := by unfold frameBoundary; split <;> (try split) <;> rfl
@[simp] theorem frameBoundary_hop (s : State) : (frameBoundary s).hop = s.hop := by unfold frameBoundary; split <;> (try split) <;> rfl
@[simp] theorem frameBoundary_result (s : State) : (frameBoundary s).result = s.result := by unfold frameBoundary; split <;> (try split) <;> rfl
@[simp] theorem frameBoundary_hcount (s : State) : (frameBoundary s).hcount = s.hcount := by unfold frameBoundary; split <;> (try split) <;> rfl
@[simp] theorem frameBoundary_vline (s : State) : (frameBoundary s).vline = s.vline := by unfold frameBoundary; split <;> (try split) <;> rfl
@[simp] theorem frameBoundary_timRun (s : State) : (frameBoundary s).timRun = s.timRun := by unfold frameBoundary; split <;> (try split) <;> rfl
@[simp] theorem frameBoundary_evtMask (s : State) : (frameBoundary s).evtMask = s.evtMask := by unfold frameBoundary; split <;> (try split) <;> rfl
@[simp] theorem frameBoundary_pinsDriven (s : State) : (frameBoundary s).pinsDriven = s.pinsDriven := by unfold frameBoundary; split <;> (try split) <;> rfl
@[simp] theorem frameBoundary_mem (s : State) : (frameBoundary s).mem = s.mem := by unfold frameBoundary; split <;> (try split) <;> rfl
@[simp] theorem frameBoundary_work (s : State) : (frameBoundary s).work = s.work := by unfold frameBoundary; split <;> (try split) <;> rfl
@[simp] theorem frameBoundary_ctx0 (s : State) : (frameBoundary s).ctx0 = s.ctx0 := by unfold frameBoundary; split <;> (try split) <;> rfl
@[simp] theorem frameBoundary_ctx1 (s : State) : (frameBoundary s).ctx1 = s.ctx1 := by unfold frameBoundary; split <;> (try split) <;> rfl
@[simp] theorem frameBoundary_fresh (s : State) : (frameBoundary s).fresh = s.fresh := by unfold frameBoundary; split <;> (try split) <;> rfl
@[simp] theorem frameBoundary_rastBusy (s : State) : (frameBoundary s).rastBusy = s.rastBusy := by unfold frameBoundary; split <;> (try split) <;> rfl
@[simp] theorem frameBoundary_rastLine (s : State) : (frameBoundary s).rastLine = s.rastLine := by unfold frameBoundary; split <;> (try split) <;> rfl
@[simp] theorem frameBoundary_rastSlot (s : State) : (frameBoundary s).rastSlot = s.rastSlot := by unfold frameBoundary; split <;> (try split) <;> rfl
@[simp] theorem frameBoundary_rastFn (s : State) : (frameBoundary s).rastFn = s.rastFn := by unfold frameBoundary; split <;> (try split) <;> rfl
@[simp] theorem frameBoundary_ctxRange (s : State) : (frameBoundary s).ctxRange = s.ctxRange := by unfold frameBoundary; split <;> (try split) <;> rfl
@[simp] theorem frameBoundary_ctxMode (s : State) : (frameBoundary s).ctxMode = s.ctxMode := by unfold frameBoundary; split <;> (try split) <;> rfl
@[simp] theorem frameBoundary_dmaPtr (s : State) : (frameBoundary s).dmaPtr = s.dmaPtr := by unfold frameBoundary; split <;> (try split) <;> rfl
@[simp] theorem frameBoundary_dmaRem (s : State) : (frameBoundary s).dmaRem = s.dmaRem := by unfold frameBoundary; split <;> (try split) <;> rfl
@[simp] theorem frameBoundary_dmaDiv (s : State) : (frameBoundary s).dmaDiv = s.dmaDiv := by unfold frameBoundary; split <;> (try split) <;> rfl
@[simp] theorem frameBoundary_dmaNext (s : State) : (frameBoundary s).dmaNext = s.dmaNext := by unfold frameBoundary; split <;> (try split) <;> rfl
@[simp] theorem frameBoundary_shiftDiv (s : State) : (frameBoundary s).shiftDiv = s.shiftDiv := by unfold frameBoundary; split <;> (try split) <;> rfl
@[simp] theorem frameBoundary_live (s : State) : (frameBoundary s).live = s.live := by unfold frameBoundary; split <;> (try split) <;> rfl
@[simp] theorem frameBoundary_videoEn (s : State) : (frameBoundary s).videoEn = s.videoEn := by unfold frameBoundary; split <;> (try split) <;> rfl
@[simp] theorem frameBoundary_slotFn (s : State) : (frameBoundary s).slotFn = s.slotFn := by unfold frameBoundary; split <;> (try split) <;> rfl
@[simp] theorem frameBoundary_tags (s : State) : (frameBoundary s).tags = s.tags := by unfold frameBoundary; split <;> (try split) <;> rfl
@[simp] theorem frameBoundary_bandRange (s : State) : (frameBoundary s).bandRange = s.bandRange := by unfold frameBoundary; split <;> (try split) <;> rfl
@[simp] theorem frameBoundary_bandSlot (s : State) : (frameBoundary s).bandSlot = s.bandSlot := by unfold frameBoundary; split <;> (try split) <;> rfl
@[simp] theorem frameBoundary_bandN (s : State) : (frameBoundary s).bandN = s.bandN := by unfold frameBoundary; split <;> (try split) <;> rfl
@[simp] theorem frameBoundary_mtxOwner (s : State) : (frameBoundary s).mtxOwner = s.mtxOwner := by unfold frameBoundary; split <;> (try split) <;> rfl
@[simp] theorem frameBoundary_params (s : State) : (frameBoundary s).params = s.params := by unfold frameBoundary; split <;> (try split) <;> rfl
@[simp] theorem frameBoundary_rdata (s : State) : (frameBoundary s).rdata = s.rdata := by unfold frameBoundary; split <;> (try split) <;> rfl
@[simp] theorem frameBoundary_sched (s : State) : (frameBoundary s).sched = s.sched := by unfold frameBoundary; split <;> (try split) <;> rfl
@[simp] theorem frameBoundary_stepNo (s : State) : (frameBoundary s).stepNo = s.stepNo := by unfold frameBoundary; split <;> (try split) <;> rfl
@[simp] theorem frameBoundary_resets (s : State) : (frameBoundary s).resets = s.resets := by unfold frameBoundary; split <;> (try split) <;> rfl

@[simp] theorem goLive_tdCtrl (r : Nat) (s : State) : (goLive r s).tdCtrl = s.tdCtrl := by unfold goLive; split <;> rfl
@[simp] theorem goLive_tdH0 (r : Nat) (s : State) : (goLive r s).tdH0 = s.tdH0 := by unfold goLive; split <;> rfl
@[simp] theorem goLive_tdH1 (r : Nat) (s : State) : (goLive r s).tdH1 = s.tdH1 := by unfold goLive; split <;> rfl
@[simp] theorem goLive_tdH2 (r : Nat) (s : State) : (goLive r s).tdH2 = s.tdH2 := by unfold goLive; split <;> rfl
@[simp] theorem goLive_tdV0 (r : Nat) (s : State) : (goLive r s).tdV0 = s.tdV0 := by unfold goLive; split <;> rfl
@[simp] theorem goLive_tdV1 (r : Nat) (s : State) : (goLive r s).tdV1 = s.tdV1 := by unfold goLive; split <;> rfl
@[simp] theorem goLive_tdV2 (r : Nat) (s : State) : (goLive r s).tdV2 = s.tdV2 := by unfold goLive; split <;> rfl
@[simp] theorem goLive_timing (r : Nat) (s : State) : (goLive r s).timing = s.timing := by unfold goLive; split <;> rfl
@[simp] theorem goLive_init (r : Nat) (s : State) : (goLive r s).init = s.init := by unfold goLive; split <;> rfl
@[simp] theorem goLive_dstate (r : Nat) (s : State) : (goLive r s).dstate = s.dstate := by unfold goLive; split <;> rfl
@[simp] theorem goLive_hop (r : Nat) (s : State) : (goLive r s).hop = s.hop := by unfold goLive; split <;> rfl
@[simp] theorem goLive_result (r : Nat) (s : State) : (goLive r s).result = s.result := by unfold goLive; split <;> rfl
@[simp] theorem goLive_hcount (r : Nat) (s : State) : (goLive r s).hcount = s.hcount := by unfold goLive; split <;> rfl
@[simp] theorem goLive_vline (r : Nat) (s : State) : (goLive r s).vline = s.vline := by unfold goLive; split <;> rfl
@[simp] theorem goLive_timRun (r : Nat) (s : State) : (goLive r s).timRun = s.timRun := by unfold goLive; split <;> rfl
@[simp] theorem goLive_evtMask (r : Nat) (s : State) : (goLive r s).evtMask = s.evtMask := by unfold goLive; split <;> rfl
@[simp] theorem goLive_pinsDriven (r : Nat) (s : State) : (goLive r s).pinsDriven = s.pinsDriven := by unfold goLive; split <;> rfl
@[simp] theorem goLive_vblCount (r : Nat) (s : State) : (goLive r s).vblCount = s.vblCount := by unfold goLive; split <;> rfl
@[simp] theorem goLive_vblFlag (r : Nat) (s : State) : (goLive r s).vblFlag = s.vblFlag := by unfold goLive; split <;> rfl
@[simp] theorem goLive_mem (r : Nat) (s : State) : (goLive r s).mem = s.mem := by unfold goLive; split <;> rfl
@[simp] theorem goLive_work (r : Nat) (s : State) : (goLive r s).work = s.work := by unfold goLive; split <;> rfl
@[simp] theorem goLive_ctx0 (r : Nat) (s : State) : (goLive r s).ctx0 = s.ctx0 := by unfold goLive; split <;> rfl
@[simp] theorem goLive_ctx1 (r : Nat) (s : State) : (goLive r s).ctx1 = s.ctx1 := by unfold goLive; split <;> rfl
@[simp] theorem goLive_fresh (r : Nat) (s : State) : (goLive r s).fresh = s.fresh := by unfold goLive; split <;> rfl
@[simp] theorem goLive_repeatCtr (r : Nat) (s : State) : (goLive r s).repeatCtr = s.repeatCtr := by unfold goLive; split <;> rfl
@[simp] theorem goLive_rastBusy (r : Nat) (s : State) : (goLive r s).rastBusy = s.rastBusy := by unfold goLive; split <;> rfl
@[simp] theorem goLive_rastLine (r : Nat) (s : State) : (goLive r s).rastLine = s.rastLine := by unfold goLive; split <;> rfl
@[simp] theorem goLive_rastSlot (r : Nat) (s : State) : (goLive r s).rastSlot = s.rastSlot := by unfold goLive; split <;> rfl
@[simp] theorem goLive_rastFn (r : Nat) (s : State) : (goLive r s).rastFn = s.rastFn := by unfold goLive; split <;> rfl
@[simp] theorem goLive_ctxRange (r : Nat) (s : State) : (goLive r s).ctxRange = s.ctxRange := by unfold goLive; split <;> rfl
@[simp] theorem goLive_ctxMode (r : Nat) (s : State) : (goLive r s).ctxMode = s.ctxMode := by unfold goLive; split <;> rfl
@[simp] theorem goLive_dmaActive (r : Nat) (s : State) : (goLive r s).dmaActive = s.dmaActive := by unfold goLive; split <;> rfl
@[simp] theorem goLive_dmaPtr (r : Nat) (s : State) : (goLive r s).dmaPtr = s.dmaPtr := by unfold goLive; split <;> rfl
@[simp] theorem goLive_dmaRem (r : Nat) (s : State) : (goLive r s).dmaRem = s.dmaRem := by unfold goLive; split <;> rfl
@[simp] theorem goLive_dmaDiv (r : Nat) (s : State) : (goLive r s).dmaDiv = s.dmaDiv := by unfold goLive; split <;> rfl
@[simp] theorem goLive_dmaNext (r : Nat) (s : State) : (goLive r s).dmaNext = s.dmaNext := by unfold goLive; split <;> rfl
@[simp] theorem goLive_shiftDiv (r : Nat) (s : State) : (goLive r s).shiftDiv = s.shiftDiv := by unfold goLive; split <;> rfl
@[simp] theorem goLive_videoOut (r : Nat) (s : State) : (goLive r s).videoOut = s.videoOut := by unfold goLive; split <;> rfl
@[simp] theorem goLive_videoEn (r : Nat) (s : State) : (goLive r s).videoEn = s.videoEn := by unfold goLive; split <;> rfl
@[simp] theorem goLive_slotFn (r : Nat) (s : State) : (goLive r s).slotFn = s.slotFn := by unfold goLive; split <;> rfl
@[simp] theorem goLive_tags (r : Nat) (s : State) : (goLive r s).tags = s.tags := by unfold goLive; split <;> rfl
@[simp] theorem goLive_bandRange (r : Nat) (s : State) : (goLive r s).bandRange = s.bandRange := by unfold goLive; split <;> rfl
@[simp] theorem goLive_bandSlot (r : Nat) (s : State) : (goLive r s).bandSlot = s.bandSlot := by unfold goLive; split <;> rfl
@[simp] theorem goLive_bandN (r : Nat) (s : State) : (goLive r s).bandN = s.bandN := by unfold goLive; split <;> rfl
@[simp] theorem goLive_bandPtr (r : Nat) (s : State) : (goLive r s).bandPtr = s.bandPtr := by unfold goLive; split <;> rfl
@[simp] theorem goLive_mtxOwner (r : Nat) (s : State) : (goLive r s).mtxOwner = s.mtxOwner := by unfold goLive; split <;> rfl
@[simp] theorem goLive_faulted (r : Nat) (s : State) : (goLive r s).faulted = s.faulted := by unfold goLive; split <;> rfl
@[simp] theorem goLive_fault (r : Nat) (s : State) : (goLive r s).fault = s.fault := by unfold goLive; split <;> rfl
@[simp] theorem goLive_faultInfo (r : Nat) (s : State) : (goLive r s).faultInfo = s.faultInfo := by unfold goLive; split <;> rfl
@[simp] theorem goLive_params (r : Nat) (s : State) : (goLive r s).params = s.params := by unfold goLive; split <;> rfl
@[simp] theorem goLive_rdata (r : Nat) (s : State) : (goLive r s).rdata = s.rdata := by unfold goLive; split <;> rfl
@[simp] theorem goLive_sched (r : Nat) (s : State) : (goLive r s).sched = s.sched := by unfold goLive; split <;> rfl
@[simp] theorem goLive_stepNo (r : Nat) (s : State) : (goLive r s).stepNo = s.stepNo := by unfold goLive; split <;> rfl
@[simp] theorem goLive_resets (r : Nat) (s : State) : (goLive r s).resets = s.resets := by unfold goLive; split <;> rfl

@[simp] theorem stepBand_tdCtrl (r : Nat) (s : State) : (stepBand r s).tdCtrl = s.tdCtrl := by unfold stepBand; split <;> rfl
@[simp] theorem stepBand_tdH0 (r : Nat) (s : State) : (stepBand r s).tdH0 = s.tdH0 := by unfold stepBand; split <;> rfl
@[simp] theorem stepBand_tdH1 (r : Nat) (s : State) : (stepBand r s).tdH1 = s.tdH1 := by unfold stepBand; split <;> rfl
@[simp] theorem stepBand_tdH2 (r : Nat) (s : State) : (stepBand r s).tdH2 = s.tdH2 := by unfold stepBand; split <;> rfl
@[simp] theorem stepBand_tdV0 (r : Nat) (s : State) : (stepBand r s).tdV0 = s.tdV0 := by unfold stepBand; split <;> rfl
@[simp] theorem stepBand_tdV1 (r : Nat) (s : State) : (stepBand r s).tdV1 = s.tdV1 := by unfold stepBand; split <;> rfl
@[simp] theorem stepBand_tdV2 (r : Nat) (s : State) : (stepBand r s).tdV2 = s.tdV2 := by unfold stepBand; split <;> rfl
@[simp] theorem stepBand_timing (r : Nat) (s : State) : (stepBand r s).timing = s.timing := by unfold stepBand; split <;> rfl
@[simp] theorem stepBand_init (r : Nat) (s : State) : (stepBand r s).init = s.init := by unfold stepBand; split <;> rfl
@[simp] theorem stepBand_dstate (r : Nat) (s : State) : (stepBand r s).dstate = s.dstate := by unfold stepBand; split <;> rfl
@[simp] theorem stepBand_hop (r : Nat) (s : State) : (stepBand r s).hop = s.hop := by unfold stepBand; split <;> rfl
@[simp] theorem stepBand_result (r : Nat) (s : State) : (stepBand r s).result = s.result := by unfold stepBand; split <;> rfl
@[simp] theorem stepBand_hcount (r : Nat) (s : State) : (stepBand r s).hcount = s.hcount := by unfold stepBand; split <;> rfl
@[simp] theorem stepBand_vline (r : Nat) (s : State) : (stepBand r s).vline = s.vline := by unfold stepBand; split <;> rfl
@[simp] theorem stepBand_timRun (r : Nat) (s : State) : (stepBand r s).timRun = s.timRun := by unfold stepBand; split <;> rfl
@[simp] theorem stepBand_evtMask (r : Nat) (s : State) : (stepBand r s).evtMask = s.evtMask := by unfold stepBand; split <;> rfl
@[simp] theorem stepBand_pinsDriven (r : Nat) (s : State) : (stepBand r s).pinsDriven = s.pinsDriven := by unfold stepBand; split <;> rfl
@[simp] theorem stepBand_vblCount (r : Nat) (s : State) : (stepBand r s).vblCount = s.vblCount := by unfold stepBand; split <;> rfl
@[simp] theorem stepBand_vblFlag (r : Nat) (s : State) : (stepBand r s).vblFlag = s.vblFlag := by unfold stepBand; split <;> rfl
@[simp] theorem stepBand_mem (r : Nat) (s : State) : (stepBand r s).mem = s.mem := by unfold stepBand; split <;> rfl
@[simp] theorem stepBand_work (r : Nat) (s : State) : (stepBand r s).work = s.work := by unfold stepBand; split <;> rfl
@[simp] theorem stepBand_ctx0 (r : Nat) (s : State) : (stepBand r s).ctx0 = s.ctx0 := by unfold stepBand; split <;> rfl
@[simp] theorem stepBand_ctx1 (r : Nat) (s : State) : (stepBand r s).ctx1 = s.ctx1 := by unfold stepBand; split <;> rfl
@[simp] theorem stepBand_fresh (r : Nat) (s : State) : (stepBand r s).fresh = s.fresh := by unfold stepBand; split <;> rfl
@[simp] theorem stepBand_rastBusy (r : Nat) (s : State) : (stepBand r s).rastBusy = s.rastBusy := by unfold stepBand; split <;> rfl
@[simp] theorem stepBand_rastLine (r : Nat) (s : State) : (stepBand r s).rastLine = s.rastLine := by unfold stepBand; split <;> rfl
@[simp] theorem stepBand_rastSlot (r : Nat) (s : State) : (stepBand r s).rastSlot = s.rastSlot := by unfold stepBand; split <;> rfl
@[simp] theorem stepBand_rastFn (r : Nat) (s : State) : (stepBand r s).rastFn = s.rastFn := by unfold stepBand; split <;> rfl
@[simp] theorem stepBand_ctxRange (r : Nat) (s : State) : (stepBand r s).ctxRange = s.ctxRange := by unfold stepBand; split <;> rfl
@[simp] theorem stepBand_ctxMode (r : Nat) (s : State) : (stepBand r s).ctxMode = s.ctxMode := by unfold stepBand; split <;> rfl
@[simp] theorem stepBand_dmaActive (r : Nat) (s : State) : (stepBand r s).dmaActive = s.dmaActive := by unfold stepBand; split <;> rfl
@[simp] theorem stepBand_dmaPtr (r : Nat) (s : State) : (stepBand r s).dmaPtr = s.dmaPtr := by unfold stepBand; split <;> rfl
@[simp] theorem stepBand_dmaRem (r : Nat) (s : State) : (stepBand r s).dmaRem = s.dmaRem := by unfold stepBand; split <;> rfl
@[simp] theorem stepBand_dmaDiv (r : Nat) (s : State) : (stepBand r s).dmaDiv = s.dmaDiv := by unfold stepBand; split <;> rfl
@[simp] theorem stepBand_dmaNext (r : Nat) (s : State) : (stepBand r s).dmaNext = s.dmaNext := by unfold stepBand; split <;> rfl
@[simp] theorem stepBand_shiftDiv (r : Nat) (s : State) : (stepBand r s).shiftDiv = s.shiftDiv := by unfold stepBand; split <;> rfl
@[simp] theorem stepBand_live (r : Nat) (s : State) : (stepBand r s).live = s.live := by unfold stepBand; split <;> rfl
@[simp] theorem stepBand_videoOut (r : Nat) (s : State) : (stepBand r s).videoOut = s.videoOut := by unfold stepBand; split <;> rfl
@[simp] theorem stepBand_videoEn (r : Nat) (s : State) : (stepBand r s).videoEn = s.videoEn := by unfold stepBand; split <;> rfl
@[simp] theorem stepBand_slotFn (r : Nat) (s : State) : (stepBand r s).slotFn = s.slotFn := by unfold stepBand; split <;> rfl
@[simp] theorem stepBand_tags (r : Nat) (s : State) : (stepBand r s).tags = s.tags := by unfold stepBand; split <;> rfl
@[simp] theorem stepBand_bandRange (r : Nat) (s : State) : (stepBand r s).bandRange = s.bandRange := by unfold stepBand; split <;> rfl
@[simp] theorem stepBand_bandSlot (r : Nat) (s : State) : (stepBand r s).bandSlot = s.bandSlot := by unfold stepBand; split <;> rfl
@[simp] theorem stepBand_bandN (r : Nat) (s : State) : (stepBand r s).bandN = s.bandN := by unfold stepBand; split <;> rfl
@[simp] theorem stepBand_mtxOwner (r : Nat) (s : State) : (stepBand r s).mtxOwner = s.mtxOwner := by unfold stepBand; split <;> rfl
@[simp] theorem stepBand_faulted (r : Nat) (s : State) : (stepBand r s).faulted = s.faulted := by unfold stepBand; split <;> rfl
@[simp] theorem stepBand_fault (r : Nat) (s : State) : (stepBand r s).fault = s.fault := by unfold stepBand; split <;> rfl
@[simp] theorem stepBand_faultInfo (r : Nat) (s : State) : (stepBand r s).faultInfo = s.faultInfo := by unfold stepBand; split <;> rfl
@[simp] theorem stepBand_params (r : Nat) (s : State) : (stepBand r s).params = s.params := by unfold stepBand; split <;> rfl
@[simp] theorem stepBand_rdata (r : Nat) (s : State) : (stepBand r s).rdata = s.rdata := by unfold stepBand; split <;> rfl
@[simp] theorem stepBand_sched (r : Nat) (s : State) : (stepBand r s).sched = s.sched := by unfold stepBand; split <;> rfl
@[simp] theorem stepBand_stepNo (r : Nat) (s : State) : (stepBand r s).stepNo = s.stepNo := by unfold stepBand; split <;> rfl
@[simp] theorem stepBand_resets (r : Nat) (s : State) : (stepBand r s).resets = s.resets := by unfold stepBand; split <;> rfl

@[simp] theorem countRepeat_tdCtrl (s : State) : (countRepeat s).tdCtrl = s.tdCtrl := by unfold countRepeat; split <;> rfl
@[simp] theorem countRepeat_tdH0 (s : State) : (countRepeat s).tdH0 = s.tdH0 := by unfold countRepeat; split <;> rfl
@[simp] theorem countRepeat_tdH1 (s : State) : (countRepeat s).tdH1 = s.tdH1 := by unfold countRepeat; split <;> rfl
@[simp] theorem countRepeat_tdH2 (s : State) : (countRepeat s).tdH2 = s.tdH2 := by unfold countRepeat; split <;> rfl
@[simp] theorem countRepeat_tdV0 (s : State) : (countRepeat s).tdV0 = s.tdV0 := by unfold countRepeat; split <;> rfl
@[simp] theorem countRepeat_tdV1 (s : State) : (countRepeat s).tdV1 = s.tdV1 := by unfold countRepeat; split <;> rfl
@[simp] theorem countRepeat_tdV2 (s : State) : (countRepeat s).tdV2 = s.tdV2 := by unfold countRepeat; split <;> rfl
@[simp] theorem countRepeat_timing (s : State) : (countRepeat s).timing = s.timing := by unfold countRepeat; split <;> rfl
@[simp] theorem countRepeat_init (s : State) : (countRepeat s).init = s.init := by unfold countRepeat; split <;> rfl
@[simp] theorem countRepeat_dstate (s : State) : (countRepeat s).dstate = s.dstate := by unfold countRepeat; split <;> rfl
@[simp] theorem countRepeat_hop (s : State) : (countRepeat s).hop = s.hop := by unfold countRepeat; split <;> rfl
@[simp] theorem countRepeat_result (s : State) : (countRepeat s).result = s.result := by unfold countRepeat; split <;> rfl
@[simp] theorem countRepeat_hcount (s : State) : (countRepeat s).hcount = s.hcount := by unfold countRepeat; split <;> rfl
@[simp] theorem countRepeat_vline (s : State) : (countRepeat s).vline = s.vline := by unfold countRepeat; split <;> rfl
@[simp] theorem countRepeat_timRun (s : State) : (countRepeat s).timRun = s.timRun := by unfold countRepeat; split <;> rfl
@[simp] theorem countRepeat_evtMask (s : State) : (countRepeat s).evtMask = s.evtMask := by unfold countRepeat; split <;> rfl
@[simp] theorem countRepeat_pinsDriven (s : State) : (countRepeat s).pinsDriven = s.pinsDriven := by unfold countRepeat; split <;> rfl
@[simp] theorem countRepeat_vblCount (s : State) : (countRepeat s).vblCount = s.vblCount := by unfold countRepeat; split <;> rfl
@[simp] theorem countRepeat_vblFlag (s : State) : (countRepeat s).vblFlag = s.vblFlag := by unfold countRepeat; split <;> rfl
@[simp] theorem countRepeat_mem (s : State) : (countRepeat s).mem = s.mem := by unfold countRepeat; split <;> rfl
@[simp] theorem countRepeat_work (s : State) : (countRepeat s).work = s.work := by unfold countRepeat; split <;> rfl
@[simp] theorem countRepeat_ctx0 (s : State) : (countRepeat s).ctx0 = s.ctx0 := by unfold countRepeat; split <;> rfl
@[simp] theorem countRepeat_ctx1 (s : State) : (countRepeat s).ctx1 = s.ctx1 := by unfold countRepeat; split <;> rfl
@[simp] theorem countRepeat_fresh (s : State) : (countRepeat s).fresh = s.fresh := by unfold countRepeat; split <;> rfl
@[simp] theorem countRepeat_rastBusy (s : State) : (countRepeat s).rastBusy = s.rastBusy := by unfold countRepeat; split <;> rfl
@[simp] theorem countRepeat_rastLine (s : State) : (countRepeat s).rastLine = s.rastLine := by unfold countRepeat; split <;> rfl
@[simp] theorem countRepeat_rastSlot (s : State) : (countRepeat s).rastSlot = s.rastSlot := by unfold countRepeat; split <;> rfl
@[simp] theorem countRepeat_rastFn (s : State) : (countRepeat s).rastFn = s.rastFn := by unfold countRepeat; split <;> rfl
@[simp] theorem countRepeat_ctxRange (s : State) : (countRepeat s).ctxRange = s.ctxRange := by unfold countRepeat; split <;> rfl
@[simp] theorem countRepeat_ctxMode (s : State) : (countRepeat s).ctxMode = s.ctxMode := by unfold countRepeat; split <;> rfl
@[simp] theorem countRepeat_dmaActive (s : State) : (countRepeat s).dmaActive = s.dmaActive := by unfold countRepeat; split <;> rfl
@[simp] theorem countRepeat_dmaPtr (s : State) : (countRepeat s).dmaPtr = s.dmaPtr := by unfold countRepeat; split <;> rfl
@[simp] theorem countRepeat_dmaRem (s : State) : (countRepeat s).dmaRem = s.dmaRem := by unfold countRepeat; split <;> rfl
@[simp] theorem countRepeat_dmaDiv (s : State) : (countRepeat s).dmaDiv = s.dmaDiv := by unfold countRepeat; split <;> rfl
@[simp] theorem countRepeat_dmaNext (s : State) : (countRepeat s).dmaNext = s.dmaNext := by unfold countRepeat; split <;> rfl
@[simp] theorem countRepeat_shiftDiv (s : State) : (countRepeat s).shiftDiv = s.shiftDiv := by unfold countRepeat; split <;> rfl
@[simp] theorem countRepeat_live (s : State) : (countRepeat s).live = s.live := by unfold countRepeat; split <;> rfl
@[simp] theorem countRepeat_videoOut (s : State) : (countRepeat s).videoOut = s.videoOut := by unfold countRepeat; split <;> rfl
@[simp] theorem countRepeat_videoEn (s : State) : (countRepeat s).videoEn = s.videoEn := by unfold countRepeat; split <;> rfl
@[simp] theorem countRepeat_slotFn (s : State) : (countRepeat s).slotFn = s.slotFn := by unfold countRepeat; split <;> rfl
@[simp] theorem countRepeat_tags (s : State) : (countRepeat s).tags = s.tags := by unfold countRepeat; split <;> rfl
@[simp] theorem countRepeat_bandRange (s : State) : (countRepeat s).bandRange = s.bandRange := by unfold countRepeat; split <;> rfl
@[simp] theorem countRepeat_bandSlot (s : State) : (countRepeat s).bandSlot = s.bandSlot := by unfold countRepeat; split <;> rfl
@[simp] theorem countRepeat_bandN (s : State) : (countRepeat s).bandN = s.bandN := by unfold countRepeat; split <;> rfl
@[simp] theorem countRepeat_bandPtr (s : State) : (countRepeat s).bandPtr = s.bandPtr := by unfold countRepeat; split <;> rfl
@[simp] theorem countRepeat_mtxOwner (s : State) : (countRepeat s).mtxOwner = s.mtxOwner := by unfold countRepeat; split <;> rfl
@[simp] theorem countRepeat_faulted (s : State) : (countRepeat s).faulted = s.faulted := by unfold countRepeat; split <;> rfl
@[simp] theorem countRepeat_fault (s : State) : (countRepeat s).fault = s.fault := by unfold countRepeat; split <;> rfl
@[simp] theorem countRepeat_faultInfo (s : State) : (countRepeat s).faultInfo = s.faultInfo := by unfold countRepeat; split <;> rfl
@[simp] theorem countRepeat_params (s : State) : (countRepeat s).params = s.params := by unfold countRepeat; split <;> rfl
@[simp] theorem countRepeat_rdata (s : State) : (countRepeat s).rdata = s.rdata := by unfold countRepeat; split <;> rfl
@[simp] theorem countRepeat_sched (s : State) : (countRepeat s).sched = s.sched := by unfold countRepeat; split <;> rfl
@[simp] theorem countRepeat_stepNo (s : State) : (countRepeat s).stepNo = s.stepNo := by unfold countRepeat; split <;> rfl
@[simp] theorem countRepeat_resets (s : State) : (countRepeat s).resets = s.resets := by unfold countRepeat; split <;> rfl

@[simp] theorem dispatchLine_tdCtrl (r : Nat) (s : State) : (dispatchLine r s).tdCtrl = s.tdCtrl := by unfold dispatchLine; split <;> simp
@[simp] theorem dispatchLine_tdH0 (r : Nat) (s : State) : (dispatchLine r s).tdH0 = s.tdH0 := by unfold dispatchLine; split <;> simp
@[simp] theorem dispatchLine_tdH1 (r : Nat) (s : State) : (dispatchLine r s).tdH1 = s.tdH1 := by unfold dispatchLine; split <;> simp
@[simp] theorem dispatchLine_tdH2 (r : Nat) (s : State) : (dispatchLine r s).tdH2 = s.tdH2 := by unfold dispatchLine; split <;> simp
@[simp] theorem dispatchLine_tdV0 (r : Nat) (s : State) : (dispatchLine r s).tdV0 = s.tdV0 := by unfold dispatchLine; split <;> simp
@[simp] theorem dispatchLine_tdV1 (r : Nat) (s : State) : (dispatchLine r s).tdV1 = s.tdV1 := by unfold dispatchLine; split <;> simp
@[simp] theorem dispatchLine_tdV2 (r : Nat) (s : State) : (dispatchLine r s).tdV2 = s.tdV2 := by unfold dispatchLine; split <;> simp
@[simp] theorem dispatchLine_timing (r : Nat) (s : State) : (dispatchLine r s).timing = s.timing := by unfold dispatchLine; split <;> simp
@[simp] theorem dispatchLine_init (r : Nat) (s : State) : (dispatchLine r s).init = s.init := by unfold dispatchLine; split <;> simp
@[simp] theorem dispatchLine_dstate (r : Nat) (s : State) : (dispatchLine r s).dstate = s.dstate := by unfold dispatchLine; split <;> simp
@[simp] theorem dispatchLine_hop (r : Nat) (s : State) : (dispatchLine r s).hop = s.hop := by unfold dispatchLine; split <;> simp
@[simp] theorem dispatchLine_result (r : Nat) (s : State) : (dispatchLine r s).result = s.result := by unfold dispatchLine; split <;> simp
@[simp] theorem dispatchLine_hcount (r : Nat) (s : State) : (dispatchLine r s).hcount = s.hcount := by unfold dispatchLine; split <;> simp
@[simp] theorem dispatchLine_vline (r : Nat) (s : State) : (dispatchLine r s).vline = s.vline := by unfold dispatchLine; split <;> simp
@[simp] theorem dispatchLine_timRun (r : Nat) (s : State) : (dispatchLine r s).timRun = s.timRun := by unfold dispatchLine; split <;> simp
@[simp] theorem dispatchLine_evtMask (r : Nat) (s : State) : (dispatchLine r s).evtMask = s.evtMask := by unfold dispatchLine; split <;> simp
@[simp] theorem dispatchLine_pinsDriven (r : Nat) (s : State) : (dispatchLine r s).pinsDriven = s.pinsDriven := by unfold dispatchLine; split <;> simp
@[simp] theorem dispatchLine_vblCount (r : Nat) (s : State) : (dispatchLine r s).vblCount = s.vblCount := by unfold dispatchLine; split <;> simp
@[simp] theorem dispatchLine_vblFlag (r : Nat) (s : State) : (dispatchLine r s).vblFlag = s.vblFlag := by unfold dispatchLine; split <;> simp
@[simp] theorem dispatchLine_mem (r : Nat) (s : State) : (dispatchLine r s).mem = s.mem := by unfold dispatchLine; split <;> simp
@[simp] theorem dispatchLine_work (r : Nat) (s : State) : (dispatchLine r s).work = s.work := by unfold dispatchLine; split <;> simp
@[simp] theorem dispatchLine_ctx0 (r : Nat) (s : State) : (dispatchLine r s).ctx0 = s.ctx0 := by unfold dispatchLine; split <;> simp
@[simp] theorem dispatchLine_ctx1 (r : Nat) (s : State) : (dispatchLine r s).ctx1 = s.ctx1 := by unfold dispatchLine; split <;> simp
@[simp] theorem dispatchLine_fresh (r : Nat) (s : State) : (dispatchLine r s).fresh = s.fresh := by unfold dispatchLine; split <;> simp
@[simp] theorem dispatchLine_repeatCtr (r : Nat) (s : State) : (dispatchLine r s).repeatCtr = s.repeatCtr := by unfold dispatchLine; split <;> simp
@[simp] theorem dispatchLine_dmaPtr (r : Nat) (s : State) : (dispatchLine r s).dmaPtr = s.dmaPtr := by unfold dispatchLine; split <;> simp
@[simp] theorem dispatchLine_dmaRem (r : Nat) (s : State) : (dispatchLine r s).dmaRem = s.dmaRem := by unfold dispatchLine; split <;> simp
@[simp] theorem dispatchLine_dmaDiv (r : Nat) (s : State) : (dispatchLine r s).dmaDiv = s.dmaDiv := by unfold dispatchLine; split <;> simp
@[simp] theorem dispatchLine_dmaNext (r : Nat) (s : State) : (dispatchLine r s).dmaNext = s.dmaNext := by unfold dispatchLine; split <;> simp
@[simp] theorem dispatchLine_shiftDiv (r : Nat) (s : State) : (dispatchLine r s).shiftDiv = s.shiftDiv := by unfold dispatchLine; split <;> simp
@[simp] theorem dispatchLine_live (r : Nat) (s : State) : (dispatchLine r s).live = s.live := by unfold dispatchLine; split <;> simp
@[simp] theorem dispatchLine_videoEn (r : Nat) (s : State) : (dispatchLine r s).videoEn = s.videoEn := by unfold dispatchLine; split <;> simp
@[simp] theorem dispatchLine_slotFn (r : Nat) (s : State) : (dispatchLine r s).slotFn = s.slotFn := by unfold dispatchLine; split <;> simp
@[simp] theorem dispatchLine_tags (r : Nat) (s : State) : (dispatchLine r s).tags = s.tags := by unfold dispatchLine; split <;> simp
@[simp] theorem dispatchLine_bandRange (r : Nat) (s : State) : (dispatchLine r s).bandRange = s.bandRange := by unfold dispatchLine; split <;> simp
@[simp] theorem dispatchLine_bandSlot (r : Nat) (s : State) : (dispatchLine r s).bandSlot = s.bandSlot := by unfold dispatchLine; split <;> simp
@[simp] theorem dispatchLine_bandN (r : Nat) (s : State) : (dispatchLine r s).bandN = s.bandN := by unfold dispatchLine; split <;> simp
@[simp] theorem dispatchLine_bandPtr (r : Nat) (s : State) : (dispatchLine r s).bandPtr = s.bandPtr := by unfold dispatchLine; split <;> simp
@[simp] theorem dispatchLine_mtxOwner (r : Nat) (s : State) : (dispatchLine r s).mtxOwner = s.mtxOwner := by unfold dispatchLine; split <;> simp
@[simp] theorem dispatchLine_params (r : Nat) (s : State) : (dispatchLine r s).params = s.params := by unfold dispatchLine; split <;> simp
@[simp] theorem dispatchLine_rdata (r : Nat) (s : State) : (dispatchLine r s).rdata = s.rdata := by unfold dispatchLine; split <;> simp
@[simp] theorem dispatchLine_sched (r : Nat) (s : State) : (dispatchLine r s).sched = s.sched := by unfold dispatchLine; split <;> simp
@[simp] theorem dispatchLine_stepNo (r : Nat) (s : State) : (dispatchLine r s).stepNo = s.stepNo := by unfold dispatchLine; split <;> simp
@[simp] theorem dispatchLine_resets (r : Nat) (s : State) : (dispatchLine r s).resets = s.resets := by unfold dispatchLine; split <;> simp

@[simp] theorem chooseRaster_tdCtrl (s : State) : (chooseRaster s).tdCtrl = s.tdCtrl := by unfold chooseRaster; dsimp only; split <;> (try split) <;> simp
@[simp] theorem chooseRaster_tdH0 (s : State) : (chooseRaster s).tdH0 = s.tdH0 := by unfold chooseRaster; dsimp only; split <;> (try split) <;> simp
@[simp] theorem chooseRaster_tdH1 (s : State) : (chooseRaster s).tdH1 = s.tdH1 := by unfold chooseRaster; dsimp only; split <;> (try split) <;> simp
@[simp] theorem chooseRaster_tdH2 (s : State) : (chooseRaster s).tdH2 = s.tdH2 := by unfold chooseRaster; dsimp only; split <;> (try split) <;> simp
@[simp] theorem chooseRaster_tdV0 (s : State) : (chooseRaster s).tdV0 = s.tdV0 := by unfold chooseRaster; dsimp only; split <;> (try split) <;> simp
@[simp] theorem chooseRaster_tdV1 (s : State) : (chooseRaster s).tdV1 = s.tdV1 := by unfold chooseRaster; dsimp only; split <;> (try split) <;> simp
@[simp] theorem chooseRaster_tdV2 (s : State) : (chooseRaster s).tdV2 = s.tdV2 := by unfold chooseRaster; dsimp only; split <;> (try split) <;> simp
@[simp] theorem chooseRaster_timing (s : State) : (chooseRaster s).timing = s.timing := by unfold chooseRaster; dsimp only; split <;> (try split) <;> simp
@[simp] theorem chooseRaster_init (s : State) : (chooseRaster s).init = s.init := by unfold chooseRaster; dsimp only; split <;> (try split) <;> simp
@[simp] theorem chooseRaster_dstate (s : State) : (chooseRaster s).dstate = s.dstate := by unfold chooseRaster; dsimp only; split <;> (try split) <;> simp
@[simp] theorem chooseRaster_hop (s : State) : (chooseRaster s).hop = s.hop := by unfold chooseRaster; dsimp only; split <;> (try split) <;> simp
@[simp] theorem chooseRaster_result (s : State) : (chooseRaster s).result = s.result := by unfold chooseRaster; dsimp only; split <;> (try split) <;> simp
@[simp] theorem chooseRaster_hcount (s : State) : (chooseRaster s).hcount = s.hcount := by unfold chooseRaster; dsimp only; split <;> (try split) <;> simp
@[simp] theorem chooseRaster_vline (s : State) : (chooseRaster s).vline = s.vline := by unfold chooseRaster; dsimp only; split <;> (try split) <;> simp
@[simp] theorem chooseRaster_timRun (s : State) : (chooseRaster s).timRun = s.timRun := by unfold chooseRaster; dsimp only; split <;> (try split) <;> simp
@[simp] theorem chooseRaster_evtMask (s : State) : (chooseRaster s).evtMask = s.evtMask := by unfold chooseRaster; dsimp only; split <;> (try split) <;> simp
@[simp] theorem chooseRaster_pinsDriven (s : State) : (chooseRaster s).pinsDriven = s.pinsDriven := by unfold chooseRaster; dsimp only; split <;> (try split) <;> simp
@[simp] theorem chooseRaster_vblCount (s : State) : (chooseRaster s).vblCount = s.vblCount := by unfold chooseRaster; dsimp only; split <;> (try split) <;> simp
@[simp] theorem chooseRaster_vblFlag (s : State) : (chooseRaster s).vblFlag = s.vblFlag := by unfold chooseRaster; dsimp only; split <;> (try split) <;> simp
@[simp] theorem chooseRaster_mem (s : State) : (chooseRaster s).mem = s.mem := by unfold chooseRaster; dsimp only; split <;> (try split) <;> simp
@[simp] theorem chooseRaster_work (s : State) : (chooseRaster s).work = s.work := by unfold chooseRaster; dsimp only; split <;> (try split) <;> simp
@[simp] theorem chooseRaster_dmaPtr (s : State) : (chooseRaster s).dmaPtr = s.dmaPtr := by unfold chooseRaster; dsimp only; split <;> (try split) <;> simp
@[simp] theorem chooseRaster_dmaRem (s : State) : (chooseRaster s).dmaRem = s.dmaRem := by unfold chooseRaster; dsimp only; split <;> (try split) <;> simp
@[simp] theorem chooseRaster_dmaDiv (s : State) : (chooseRaster s).dmaDiv = s.dmaDiv := by unfold chooseRaster; dsimp only; split <;> (try split) <;> simp
@[simp] theorem chooseRaster_dmaNext (s : State) : (chooseRaster s).dmaNext = s.dmaNext := by unfold chooseRaster; dsimp only; split <;> (try split) <;> simp
@[simp] theorem chooseRaster_shiftDiv (s : State) : (chooseRaster s).shiftDiv = s.shiftDiv := by unfold chooseRaster; dsimp only; split <;> (try split) <;> simp
@[simp] theorem chooseRaster_videoEn (s : State) : (chooseRaster s).videoEn = s.videoEn := by unfold chooseRaster; dsimp only; split <;> (try split) <;> simp
@[simp] theorem chooseRaster_slotFn (s : State) : (chooseRaster s).slotFn = s.slotFn := by unfold chooseRaster; dsimp only; split <;> (try split) <;> simp
@[simp] theorem chooseRaster_tags (s : State) : (chooseRaster s).tags = s.tags := by unfold chooseRaster; dsimp only; split <;> (try split) <;> simp
@[simp] theorem chooseRaster_bandRange (s : State) : (chooseRaster s).bandRange = s.bandRange := by unfold chooseRaster; dsimp only; split <;> (try split) <;> simp
@[simp] theorem chooseRaster_bandSlot (s : State) : (chooseRaster s).bandSlot = s.bandSlot := by unfold chooseRaster; dsimp only; split <;> (try split) <;> simp
@[simp] theorem chooseRaster_bandN (s : State) : (chooseRaster s).bandN = s.bandN := by unfold chooseRaster; dsimp only; split <;> (try split) <;> simp
@[simp] theorem chooseRaster_mtxOwner (s : State) : (chooseRaster s).mtxOwner = s.mtxOwner := by unfold chooseRaster; dsimp only; split <;> (try split) <;> simp
@[simp] theorem chooseRaster_params (s : State) : (chooseRaster s).params = s.params := by unfold chooseRaster; dsimp only; split <;> (try split) <;> simp
@[simp] theorem chooseRaster_rdata (s : State) : (chooseRaster s).rdata = s.rdata := by unfold chooseRaster; dsimp only; split <;> (try split) <;> simp
@[simp] theorem chooseRaster_sched (s : State) : (chooseRaster s).sched = s.sched := by unfold chooseRaster; dsimp only; split <;> (try split) <;> simp
@[simp] theorem chooseRaster_stepNo (s : State) : (chooseRaster s).stepNo = s.stepNo := by unfold chooseRaster; dsimp only; split <;> (try split) <;> simp
@[simp] theorem chooseRaster_resets (s : State) : (chooseRaster s).resets = s.resets := by unfold chooseRaster; dsimp only; split <;> (try split) <;> simp

@[simp] theorem eavEvent_tdCtrl (s : State) : (eavEvent s).tdCtrl = s.tdCtrl := by unfold eavEvent thenDo; dsimp only; split <;> (try split) <;> simp
@[simp] theorem eavEvent_tdH0 (s : State) : (eavEvent s).tdH0 = s.tdH0 := by unfold eavEvent thenDo; dsimp only; split <;> (try split) <;> simp
@[simp] theorem eavEvent_tdH1 (s : State) : (eavEvent s).tdH1 = s.tdH1 := by unfold eavEvent thenDo; dsimp only; split <;> (try split) <;> simp
@[simp] theorem eavEvent_tdH2 (s : State) : (eavEvent s).tdH2 = s.tdH2 := by unfold eavEvent thenDo; dsimp only; split <;> (try split) <;> simp
@[simp] theorem eavEvent_tdV0 (s : State) : (eavEvent s).tdV0 = s.tdV0 := by unfold eavEvent thenDo; dsimp only; split <;> (try split) <;> simp
@[simp] theorem eavEvent_tdV1 (s : State) : (eavEvent s).tdV1 = s.tdV1 := by unfold eavEvent thenDo; dsimp only; split <;> (try split) <;> simp
@[simp] theorem eavEvent_tdV2 (s : State) : (eavEvent s).tdV2 = s.tdV2 := by unfold eavEvent thenDo; dsimp only; split <;> (try split) <;> simp
@[simp] theorem eavEvent_timing (s : State) : (eavEvent s).timing = s.timing := by unfold eavEvent thenDo; dsimp only; split <;> (try split) <;> simp
@[simp] theorem eavEvent_init (s : State) : (eavEvent s).init = s.init := by unfold eavEvent thenDo; dsimp only; split <;> (try split) <;> simp
@[simp] theorem eavEvent_dstate (s : State) : (eavEvent s).dstate = s.dstate := by unfold eavEvent thenDo; dsimp only; split <;> (try split) <;> simp
@[simp] theorem eavEvent_hop (s : State) : (eavEvent s).hop = s.hop := by unfold eavEvent thenDo; dsimp only; split <;> (try split) <;> simp
@[simp] theorem eavEvent_result (s : State) : (eavEvent s).result = s.result := by unfold eavEvent thenDo; dsimp only; split <;> (try split) <;> simp
@[simp] theorem eavEvent_hcount (s : State) : (eavEvent s).hcount = s.hcount := by unfold eavEvent thenDo; dsimp only; split <;> (try split) <;> simp
@[simp] theorem eavEvent_timRun (s : State) : (eavEvent s).timRun = s.timRun := by unfold eavEvent thenDo; dsimp only; split <;> (try split) <;> simp
@[simp] theorem eavEvent_evtMask (s : State) : (eavEvent s).evtMask = s.evtMask := by unfold eavEvent thenDo; dsimp only; split <;> (try split) <;> simp
@[simp] theorem eavEvent_pinsDriven (s : State) : (eavEvent s).pinsDriven = s.pinsDriven := by unfold eavEvent thenDo; dsimp only; split <;> (try split) <;> simp
@[simp] theorem eavEvent_mem (s : State) : (eavEvent s).mem = s.mem := by unfold eavEvent thenDo; dsimp only; split <;> (try split) <;> simp
@[simp] theorem eavEvent_work (s : State) : (eavEvent s).work = s.work := by unfold eavEvent thenDo; dsimp only; split <;> (try split) <;> simp
@[simp] theorem eavEvent_dmaPtr (s : State) : (eavEvent s).dmaPtr = s.dmaPtr := by unfold eavEvent thenDo; dsimp only; split <;> (try split) <;> simp
@[simp] theorem eavEvent_dmaRem (s : State) : (eavEvent s).dmaRem = s.dmaRem := by unfold eavEvent thenDo; dsimp only; split <;> (try split) <;> simp
@[simp] theorem eavEvent_dmaDiv (s : State) : (eavEvent s).dmaDiv = s.dmaDiv := by unfold eavEvent thenDo; dsimp only; split <;> (try split) <;> simp
@[simp] theorem eavEvent_dmaNext (s : State) : (eavEvent s).dmaNext = s.dmaNext := by unfold eavEvent thenDo; dsimp only; split <;> (try split) <;> simp
@[simp] theorem eavEvent_shiftDiv (s : State) : (eavEvent s).shiftDiv = s.shiftDiv := by unfold eavEvent thenDo; dsimp only; split <;> (try split) <;> simp
@[simp] theorem eavEvent_videoEn (s : State) : (eavEvent s).videoEn = s.videoEn := by unfold eavEvent thenDo; dsimp only; split <;> (try split) <;> simp
@[simp] theorem eavEvent_slotFn (s : State) : (eavEvent s).slotFn = s.slotFn := by unfold eavEvent thenDo; dsimp only; split <;> (try split) <;> simp
@[simp] theorem eavEvent_tags (s : State) : (eavEvent s).tags = s.tags := by unfold eavEvent thenDo; dsimp only; split <;> (try split) <;> simp
@[simp] theorem eavEvent_bandRange (s : State) : (eavEvent s).bandRange = s.bandRange := by unfold eavEvent thenDo; dsimp only; split <;> (try split) <;> simp
@[simp] theorem eavEvent_bandSlot (s : State) : (eavEvent s).bandSlot = s.bandSlot := by unfold eavEvent thenDo; dsimp only; split <;> (try split) <;> simp
@[simp] theorem eavEvent_bandN (s : State) : (eavEvent s).bandN = s.bandN := by unfold eavEvent thenDo; dsimp only; split <;> (try split) <;> simp
@[simp] theorem eavEvent_mtxOwner (s : State) : (eavEvent s).mtxOwner = s.mtxOwner := by unfold eavEvent thenDo; dsimp only; split <;> (try split) <;> simp
@[simp] theorem eavEvent_params (s : State) : (eavEvent s).params = s.params := by unfold eavEvent thenDo; dsimp only; split <;> (try split) <;> simp
@[simp] theorem eavEvent_rdata (s : State) : (eavEvent s).rdata = s.rdata := by unfold eavEvent thenDo; dsimp only; split <;> (try split) <;> simp
@[simp] theorem eavEvent_sched (s : State) : (eavEvent s).sched = s.sched := by unfold eavEvent thenDo; dsimp only; split <;> (try split) <;> simp
@[simp] theorem eavEvent_stepNo (s : State) : (eavEvent s).stepNo = s.stepNo := by unfold eavEvent thenDo; dsimp only; split <;> (try split) <;> simp
@[simp] theorem eavEvent_resets (s : State) : (eavEvent s).resets = s.resets := by unfold eavEvent thenDo; dsimp only; split <;> (try split) <;> simp

@[simp] theorem regWrite_timing (r : Reg) (v : Word) (s : State) : (regWrite r v s).timing = s.timing := by cases r <;> rfl
@[simp] theorem regWrite_init (r : Reg) (v : Word) (s : State) : (regWrite r v s).init = s.init := by cases r <;> rfl
@[simp] theorem regWrite_dstate (r : Reg) (v : Word) (s : State) : (regWrite r v s).dstate = s.dstate := by cases r <;> rfl
@[simp] theorem regWrite_hop (r : Reg) (v : Word) (s : State) : (regWrite r v s).hop = s.hop := by cases r <;> rfl
@[simp] theorem regWrite_result (r : Reg) (v : Word) (s : State) : (regWrite r v s).result = s.result := by cases r <;> rfl
@[simp] theorem regWrite_hcount (r : Reg) (v : Word) (s : State) : (regWrite r v s).hcount = s.hcount := by cases r <;> rfl
@[simp] theorem regWrite_vline (r : Reg) (v : Word) (s : State) : (regWrite r v s).vline = s.vline := by cases r <;> rfl
@[simp] theorem regWrite_timRun (r : Reg) (v : Word) (s : State) : (regWrite r v s).timRun = s.timRun := by cases r <;> rfl
@[simp] theorem regWrite_evtMask (r : Reg) (v : Word) (s : State) : (regWrite r v s).evtMask = s.evtMask := by cases r <;> rfl
@[simp] theorem regWrite_pinsDriven (r : Reg) (v : Word) (s : State) : (regWrite r v s).pinsDriven = s.pinsDriven := by cases r <;> rfl
@[simp] theorem regWrite_vblCount (r : Reg) (v : Word) (s : State) : (regWrite r v s).vblCount = s.vblCount := by cases r <;> rfl
@[simp] theorem regWrite_vblFlag (r : Reg) (v : Word) (s : State) : (regWrite r v s).vblFlag = s.vblFlag := by cases r <;> rfl
@[simp] theorem regWrite_mem (r : Reg) (v : Word) (s : State) : (regWrite r v s).mem = s.mem := by cases r <;> rfl
@[simp] theorem regWrite_work (r : Reg) (v : Word) (s : State) : (regWrite r v s).work = s.work := by cases r <;> rfl
@[simp] theorem regWrite_ctx0 (r : Reg) (v : Word) (s : State) : (regWrite r v s).ctx0 = s.ctx0 := by cases r <;> rfl
@[simp] theorem regWrite_ctx1 (r : Reg) (v : Word) (s : State) : (regWrite r v s).ctx1 = s.ctx1 := by cases r <;> rfl
@[simp] theorem regWrite_fresh (r : Reg) (v : Word) (s : State) : (regWrite r v s).fresh = s.fresh := by cases r <;> rfl
@[simp] theorem regWrite_repeatCtr (r : Reg) (v : Word) (s : State) : (regWrite r v s).repeatCtr = s.repeatCtr := by cases r <;> rfl
@[simp] theorem regWrite_rastBusy (r : Reg) (v : Word) (s : State) : (regWrite r v s).rastBusy = s.rastBusy := by cases r <;> rfl
@[simp] theorem regWrite_rastLine (r : Reg) (v : Word) (s : State) : (regWrite r v s).rastLine = s.rastLine := by cases r <;> rfl
@[simp] theorem regWrite_rastSlot (r : Reg) (v : Word) (s : State) : (regWrite r v s).rastSlot = s.rastSlot := by cases r <;> rfl
@[simp] theorem regWrite_rastFn (r : Reg) (v : Word) (s : State) : (regWrite r v s).rastFn = s.rastFn := by cases r <;> rfl
@[simp] theorem regWrite_dmaActive (r : Reg) (v : Word) (s : State) : (regWrite r v s).dmaActive = s.dmaActive := by cases r <;> rfl
@[simp] theorem regWrite_dmaPtr (r : Reg) (v : Word) (s : State) : (regWrite r v s).dmaPtr = s.dmaPtr := by cases r <;> rfl
@[simp] theorem regWrite_dmaRem (r : Reg) (v : Word) (s : State) : (regWrite r v s).dmaRem = s.dmaRem := by cases r <;> rfl
@[simp] theorem regWrite_dmaDiv (r : Reg) (v : Word) (s : State) : (regWrite r v s).dmaDiv = s.dmaDiv := by cases r <;> rfl
@[simp] theorem regWrite_dmaNext (r : Reg) (v : Word) (s : State) : (regWrite r v s).dmaNext = s.dmaNext := by cases r <;> rfl
@[simp] theorem regWrite_shiftDiv (r : Reg) (v : Word) (s : State) : (regWrite r v s).shiftDiv = s.shiftDiv := by cases r <;> rfl
@[simp] theorem regWrite_live (r : Reg) (v : Word) (s : State) : (regWrite r v s).live = s.live := by cases r <;> rfl
@[simp] theorem regWrite_videoOut (r : Reg) (v : Word) (s : State) : (regWrite r v s).videoOut = s.videoOut := by cases r <;> rfl
@[simp] theorem regWrite_videoEn (r : Reg) (v : Word) (s : State) : (regWrite r v s).videoEn = s.videoEn := by cases r <;> rfl
@[simp] theorem regWrite_tags (r : Reg) (v : Word) (s : State) : (regWrite r v s).tags = s.tags := by cases r <;> rfl
@[simp] theorem regWrite_bandN (r : Reg) (v : Word) (s : State) : (regWrite r v s).bandN = s.bandN := by cases r <;> rfl
@[simp] theorem regWrite_bandPtr (r : Reg) (v : Word) (s : State) : (regWrite r v s).bandPtr = s.bandPtr := by cases r <;> rfl
@[simp] theorem regWrite_mtxOwner (r : Reg) (v : Word) (s : State) : (regWrite r v s).mtxOwner = s.mtxOwner := by cases r <;> rfl
@[simp] theorem regWrite_faulted (r : Reg) (v : Word) (s : State) : (regWrite r v s).faulted = s.faulted := by cases r <;> rfl
@[simp] theorem regWrite_fault (r : Reg) (v : Word) (s : State) : (regWrite r v s).fault = s.fault := by cases r <;> rfl
@[simp] theorem regWrite_faultInfo (r : Reg) (v : Word) (s : State) : (regWrite r v s).faultInfo = s.faultInfo := by cases r <;> rfl
@[simp] theorem regWrite_params (r : Reg) (v : Word) (s : State) : (regWrite r v s).params = s.params := by cases r <;> rfl
@[simp] theorem regWrite_rdata (r : Reg) (v : Word) (s : State) : (regWrite r v s).rdata = s.rdata := by cases r <;> rfl
@[simp] theorem regWrite_sched (r : Reg) (v : Word) (s : State) : (regWrite r v s).sched = s.sched := by cases r <;> rfl
@[simp] theorem regWrite_stepNo (r : Reg) (v : Word) (s : State) : (regWrite r v s).stepNo = s.stepNo := by cases r <;> rfl
@[simp] theorem regWrite_resets (r : Reg) (v : Word) (s : State) : (regWrite r v s).resets = s.resets := by cases r <;> rfl

end Sys2Proof.Machine
end

