-- ==== Sys2Proof/Laws/Memory.lean ====
section
/-! SUPPORT. The laws of the buffers' memory: what a read finds after a write, and that every operation keeps the
canonical form. -/

namespace Sys2Proof.Machine

theorem Memory.read?_write_same (m : Memory) (a : Nat) (b : Byte) : (m.write a b).read? a = some b := by
  induction m with
  | nil => simp [Memory.write, Memory.read?]
  | cons x m ih =>
    obtain ⟨a', b'⟩ := x
    simp only [Memory.write]
    split
    · simp [Memory.read?]
    · split
      · simp [Memory.read?]
      · simp [Memory.read?, *]

theorem Memory.read?_write_other (m : Memory) {a a' : Nat} (b : Byte) (h : a' ≠ a) :
    (m.write a b).read? a' = m.read? a' := by
  induction m with
  | nil => simp [Memory.write, Memory.read?, h]
  | cons x m ih =>
    obtain ⟨c, b'⟩ := x
    simp only [Memory.write]
    split
    · simp [Memory.read?, h]
    · split
      · rename_i _ hc
        subst hc
        simp [Memory.read?, h]
      · simp only [Memory.read?, ih]

/-- A write adds no address but its own. -/
theorem Memory.mem_write {m : Memory} {a : Nat} {b : Byte} {x : Host.Cell} (h : x ∈ m.write a b) :
    x.1 = a ∨ x ∈ m := by
  induction m with
  | nil => simp [Memory.write] at h; simp [h]
  | cons y m ih =>
    obtain ⟨c, b'⟩ := y
    simp only [Memory.write] at h
    split at h
    · rcases List.mem_cons.1 h with h | h
      · exact .inl (by rw [h])
      · exact .inr h
    · split at h
      · rcases List.mem_cons.1 h with h | h
        · exact .inl (by rw [h])
        · exact .inr (List.mem_cons_of_mem _ h)
      · rcases List.mem_cons.1 h with h | h
        · exact .inr (by simp [h])
        · exact (ih h).imp id (List.mem_cons_of_mem _)

theorem Memory.write_wf {m : Memory} (h : m.wf) (a : Nat) (b : Byte) : (m.write a b).wf := by
  induction m with
  | nil => simp [Memory.write]
  | cons y m ih =>
    obtain ⟨c, b'⟩ := y
    obtain ⟨hc, hm⟩ := List.pairwise_cons.1 h
    simp only [Memory.write]
    split
    · rename_i hac
      refine List.pairwise_cons.2 ⟨fun x hx => ?_, h⟩
      rcases List.mem_cons.1 hx with rfl | hx
      · exact hac
      · exact Nat.lt_trans hac (hc x hx)
    · split
      · rename_i _ hac
        subst hac
        exact List.pairwise_cons.2 ⟨hc, hm⟩
      · rename_i h1 h2
        refine List.pairwise_cons.2 ⟨fun x hx => ?_, ih hm⟩
        rcases Memory.mem_write hx with hx | hx
        · simp only [hx]; omega
        · exact hc x hx

theorem Memory.writeBytes_wf {m : Memory} (h : m.wf) (a : Nat) (bs : List Byte) : (m.writeBytes a bs).wf := by
  induction bs generalizing m a with
  | nil => exact h
  | cons b bs ih => exact ih (Memory.write_wf h a b) (a + 1)

/-- Writing bytes leaves every address outside them alone. -/
theorem Memory.read?_writeBytes_out (m : Memory) (a : Nat) (bs : List Byte) {x : Nat}
    (h : x < a ∨ a + bs.length ≤ x) : (m.writeBytes a bs).read? x = m.read? x := by
  induction bs generalizing m a with
  | nil => rfl
  | cons b bs ih =>
    simp only [List.length_cons] at h
    rw [Memory.writeBytes, ih _ _ (by omega), Memory.read?_write_other _ _ (by omega)]

/-- Reading back a byte that was written. -/
theorem Memory.read?_writeBytes_in (m : Memory) (a : Nat) (bs : List Byte) {i : Nat} (h : i < bs.length) :
    (m.writeBytes a bs).read? (a + i) = bs[i]? := by
  induction bs generalizing m a i with
  | nil => simp at h
  | cons b bs ih =>
    cases i with
    | zero =>
      rw [Memory.writeBytes, Memory.read?_writeBytes_out _ _ _ (by omega), Nat.add_zero,
        Memory.read?_write_same]
      rfl
    | succ i =>
      rw [Memory.writeBytes, show a + (i + 1) = a + 1 + i by omega, ih _ _ (by simpa using h)]
      rfl

/-- The two buffers do not meet, for indices of up to 16 bits. -/
theorem bufAddr_inj {b b' : Bool} {k k' : Nat} (hk : k < 65536) (hk' : k' < 65536)
    (h : bufAddr b k = bufAddr b' k') : b = b' ∧ k = k' := by
  cases b <;> cases b' <;> simp [bufAddr] at h ⊢ <;> omega

@[simp] theorem bytesOf_length (n : Nat) (v : Word) : (bytesOf n v).length = n := by simp [bytesOf]

theorem bytesOf_getElem? (n : Nat) (v : Word) {i : Nat} (h : i < n) :
    (bytesOf n v)[i]? = some (v.extractLsb' (8 * i) 8) := by
  simp [bytesOf, h]

theorem bufByte_storeBuf_in (b : Bool) (k n : Nat) (v : Word) (s : State) {i : Nat} (h : i < n) :
    bufByte (storeBuf b k n v s) b (k + i) = v.extractLsb' (8 * i) 8 := by
  have e : bufAddr b (k + i) = bufAddr b k + i := by simp only [bufAddr]; omega
  rw [bufByte, storeBuf_mem, e, Memory.read?_writeBytes_in _ _ _ (by simpa using h), bytesOf_getElem? _ _ h]
  rfl

theorem bufByte_storeBuf_out (b : Bool) (k n : Nat) (v : Word) (s : State) {b' : Bool} {j : Nat}
    (hk : k + n ≤ 65536) (hj : j < 65536) (h : ¬ (b' = b ∧ k ≤ j ∧ j < k + n)) :
    bufByte (storeBuf b k n v s) b' j = bufByte s b' j := by
  have e : (s.mem.writeBytes (bufAddr b k) (bytesOf n v)).read? (bufAddr b' j) = s.mem.read? (bufAddr b' j) := by
    apply Memory.read?_writeBytes_out
    rw [bytesOf_length]
    cases b <;> cases b' <;> simp [bufAddr] at h ⊢ <;> omega
  rw [bufByte, storeBuf_mem, storeBuf_resets, e, bufByte]

theorem storeBuf_wf {s : State} (h : Memory.wf s.mem) (b : Bool) (k n : Nat) (v : Word) :
    Memory.wf (storeBuf b k n v s).mem :=
  Memory.writeBytes_wf h _ _

/-- What a buffer byte reads as depends on the memory and the count of resets only. -/
theorem bufByte_congr {s t : State} (hm : t.mem = s.mem) (hr : t.resets = s.resets) (b : Bool) (k : Nat) :
    bufByte t b k = bufByte s b k := by
  rw [bufByte, bufByte, hm, hr]

end Sys2Proof.Machine
end

