-- ==== Sys2Proof/Laws/Ops.lean ====
section
/-! SUPPORT. For each shared operation, once, everything it can do. -/

namespace Sys2Proof.Machine

theorem thenDo_faulted {s : State} (h : s.faulted = true) (f : State → State) : thenDo s f = s := by
  simp [thenDo, h]

theorem thenDo_running {s : State} (h : s.faulted = false) (f : State → State) : thenDo s f = f s := by
  simp [thenDo, h]

/-- What a command does: nothing when faulted, fault 6 when illegal, else its effect and then `progress()`. -/
theorem issueCommand_cases (w : Word) (legal : Bool) (perform : State → State) (s : State) :
    (s.faulted = true ∧ issueCommand w legal perform s = s) ∨
    (s.faulted = false ∧ legal = false ∧ issueCommand w legal perform s = raiseFault .illegalOp w s) ∨
    (s.faulted = false ∧ legal = true ∧ (perform s).faulted = true ∧ issueCommand w legal perform s = perform s) ∨
    (s.faulted = false ∧ legal = true ∧ (perform s).faulted = false ∧
      issueCommand w legal perform s = progress (perform s)) := by
  cases hf : s.faulted <;> cases legal <;> cases hp : (perform s).faulted <;> simp [issueCommand, thenDo, hf, hp]

/-- What `progress()` does: nothing, or the end of a drain, or the end of a wait (R276). -/
theorem progress_cases (s : State) :
    progress s = s ∨
    (s.hop = .drain ∧ s.rastBusy = false ∧ progress s = { s with dstate := .syncGen, hop := .none, result := 0 }) ∨
    (∃ sample, s.hop = .waitVbl sample .done ∧ sample.toNat < s.vblCount.toNat ∧
      progress s = { s with vblFlag := false, hop := .none, result := 0 }) ∨
    (∃ sample, s.hop = .waitVbl sample .gateOn ∧ sample.toNat < s.vblCount.toNat ∧
      progress s = { s with vblFlag := false, mtxOwner := .thread, hop := .gateHold s.params.gateHold true }) ∨
    (∃ sample, s.hop = .waitVbl sample .gateOff ∧ sample.toNat < s.vblCount.toNat ∧
      progress s = { s with vblFlag := false, mtxOwner := .thread, hop := .gateHold s.params.gateHold false }) := by
  unfold progress
  split
  · exact .inl rfl
  · rename_i h
    split
    · exact .inl rfl
    · rename_i hb
      exact .inr (.inl ⟨h, by simpa using hb, rfl⟩)
  · rename_i sample next h
    split
    · rename_i hlt
      cases next with
      | done => exact .inr (.inr (.inl ⟨sample, h, hlt, rfl⟩))
      | gateOn => exact .inr (.inr (.inr (.inl ⟨sample, h, hlt, rfl⟩)))
      | gateOff => exact .inr (.inr (.inr (.inr ⟨sample, h, hlt, rfl⟩)))
    · exact .inl rfl
  · exact .inl rfl

/-- A second `progress()` in one step does nothing: R193 step 9 and R253 step 4 are the one that ends the write. -/
theorem progress_progress (s : State) : progress (progress s) = progress s := by
  rcases progress_cases s with h | ⟨_, _, h⟩ | ⟨_, _, _, h⟩ | ⟨_, _, _, h⟩ | ⟨_, _, _, h⟩ <;> rw [h] <;>
    first | exact h | rfl

/-- What the gate countdown does (R238). -/
theorem gateCountdown_cases (s : State) :
    ((∀ rem target, s.hop ≠ .gateHold rem target) ∧ gateCountdown s = s) ∨
    (∃ rem target, s.hop = .gateHold rem target ∧ rem - 1 = 0 ∧
      gateCountdown s = { s with videoEn := target, mtxOwner := .free, hop := .none, result := 0 }) ∨
    (∃ rem target, s.hop = .gateHold rem target ∧ rem - 1 ≠ 0 ∧
      gateCountdown s = { s with hop := .gateHold (rem - 1) target }) := by
  unfold gateCountdown
  split
  · rename_i rem target h
    split
    · rename_i hr
      exact .inr (.inl ⟨rem, target, h, hr, rfl⟩)
    · rename_i hr
      exact .inr (.inr ⟨rem, target, h, hr, rfl⟩)
  · rename_i h
    exact .inl ⟨by simp [h], rfl⟩
  · rename_i h
    exact .inl ⟨by simp [h], rfl⟩
  · rename_i h
    exact .inl ⟨by simp [h], rfl⟩

/-- What arming the DMA does (R182 step 5). -/
theorem armDma_cases (s : State) :
    (¬ ((shapeOf s (!s.work)).valid = true ∧ (shapeOf s (!s.work)).start.toNat < (shapeOf s (!s.work)).stop.toNat) ∧
      armDma s = s) ∨
    ((shapeOf s (!s.work)).valid = true ∧ (shapeOf s (!s.work)).start.toNat < (shapeOf s (!s.work)).stop.toNat ∧
      armDma s = { s with
        dmaActive := true
        dmaPtr := (shapeOf s (!s.work)).start
        dmaRem := (shapeOf s (!s.work)).stop - (shapeOf s (!s.work)).start
        dmaDiv := s.shiftDiv
        dmaNext := s.timing.mPix0 }) := by
  unfold armDma
  dsimp only
  split
  · rename_i h
    simp only [Bool.and_eq_true, decide_eq_true_eq] at h
    exact .inr ⟨h.1, h.2, rfl⟩
  · rename_i h
    simp only [Bool.and_eq_true, decide_eq_true_eq] at h
    exact .inl ⟨h, rfl⟩

/-- What `SAV` does (R182). -/
theorem savEvent_cases (s : State) :
    (s.mtxOwner = .thread ∧ savEvent s = raiseFault .threadMutex (s.vline.setWidth 32) s) ∨
    (s.mtxOwner ≠ .thread ∧ s.rastBusy = true ∧
      savEvent s = raiseFault .deadlineMiss (s.rastLine.setWidth 32) s) ∨
    (s.mtxOwner ≠ .thread ∧ s.rastBusy = false ∧ s.dmaActive = true ∧
      savEvent s = raiseFault .deadlineMiss 0xFFFFFFFF#32 s) ∨
    (s.mtxOwner ≠ .thread ∧ s.rastBusy = false ∧ s.dmaActive = false ∧
      savEvent s = armDma (swapBuffers s)) := by
  unfold savEvent
  split
  · exact .inl ⟨‹_›, rfl⟩
  · rename_i h
    cases hb : s.rastBusy <;> cases hd : s.dmaActive <;> simp [h]

/-- What a dispatch does (R186). -/
theorem rastEvent_cases (r : Half) (k : BitVec 8) (s : State) :
    (s.rastBusy = true ∧ rastEvent r k s = raiseFault .deadlineMiss (s.rastLine.setWidth 32) s) ∨
    (s.rastBusy = false ∧ rastEvent r k s = { s with
      rastBusy := true, rastLine := r, rastSlot := k, rastFn := slotFnAt s k.toNat
      ctxRange := 0x00000000#32, ctxMode := 0x00000001#32 }) := by
  unfold rastEvent
  cases h : s.rastBusy <;> simp

/-- What the frame boundary does (R184). -/
theorem frameBoundary_cases (s : State) :
    (s.vline ≠ 0 ∧ frameBoundary s = s) ∨
    (s.vline = 0 ∧ s.vblCount = 0xFFFFFFFF#32 ∧ frameBoundary s = raiseFault .vblankOverflow 0 s) ∨
    (s.vline = 0 ∧ s.vblCount ≠ 0xFFFFFFFF#32 ∧ frameBoundary s =
      { s with vblCount := s.vblCount + 1, vblFlag := true, bandPtr := 0, repeatCtr := 0 }) := by
  unfold frameBoundary
  split
  · split
    · exact .inr (.inl ⟨‹_›, ‹_›, rfl⟩)
    · exact .inr (.inr ⟨‹_›, ‹_›, rfl⟩)
  · exact .inl ⟨‹_›, rfl⟩

/-- What `EAV` does before R185 (R183, R184). -/
theorem eavEvent_cases (s : State) :
    (s.mtxOwner = .thread ∧ s.timing.visible (nextLine s) = true ∧
      eavEvent s = raiseFault .threadMutex ((nextLine s).setWidth 32) s) ∨
    (¬ (s.mtxOwner = .thread ∧ s.timing.visible (nextLine s) = true) ∧
      eavEvent s =
        thenDo (frameBoundary { s with dmaActive := false, videoOut := 0, vline := nextLine s }) chooseRaster) := by
  unfold eavEvent
  dsimp only
  split
  · rename_i h
    exact .inl ⟨h.1, h.2, rfl⟩
  · rename_i h
    exact .inr ⟨h, rfl⟩

/-- What the swap does (R182 step 4). -/
theorem swapBuffers_cases (s : State) :
    (s.fresh = true ∧ swapBuffers s = { s with work := !s.work, fresh := false }) ∨
    (s.fresh = false ∧ swapBuffers s = s) := by
  unfold swapBuffers
  cases h : s.fresh <;> simp

/-- A swap does not move a shape: it follows its buffer. -/
@[simp] theorem swapBuffers_shapeOf (s : State) (b : Bool) : shapeOf (swapBuffers s) b = shapeOf s b := by
  unfold swapBuffers
  split <;> rfl

/-- What R185 step 1 does. -/
theorem goLive_cases (r : Nat) (s : State) :
    (r = 0 ∧ s.dstate = .rasterLoaded ∧ 1 ≤ s.bandN.toNat ∧ tagLoaded s (bandSlotAt s 0).toNat = true ∧
      goLive r s = { s with live := true }) ∨
    (¬ (r = 0 ∧ s.dstate = .rasterLoaded ∧ 1 ≤ s.bandN.toNat ∧ tagLoaded s (bandSlotAt s 0).toNat = true) ∧
      goLive r s = s) := by
  unfold goLive
  split
  · rename_i h
    simp only [Bool.and_eq_true, beq_iff_eq, decide_eq_true_eq] at h
    exact .inl ⟨h.1.1.1, h.1.1.2, h.1.2, h.2, rfl⟩
  · rename_i h
    simp only [Bool.and_eq_true, beq_iff_eq, decide_eq_true_eq] at h
    exact .inr ⟨fun h' => h ⟨⟨⟨h'.1, h'.2.1⟩, h'.2.2.1⟩, h'.2.2.2⟩, rfl⟩

/-- What R185 step 3a does. -/
theorem stepBand_cases (r : Nat) (s : State) :
    (s.bandPtr.toNat + 1 < s.bandN.toNat ∧ r = (bandEnd (bandRangeAt s s.bandPtr.toNat)).toNat ∧
      stepBand r s = { s with bandPtr := s.bandPtr + 1, repeatCtr := 0 }) ∨
    (¬ (s.bandPtr.toNat + 1 < s.bandN.toNat ∧ r = (bandEnd (bandRangeAt s s.bandPtr.toNat)).toNat) ∧
      stepBand r s = s) := by
  unfold stepBand
  split
  · rename_i h
    simp only [Bool.and_eq_true, decide_eq_true_eq] at h
    exact .inl ⟨h.1, h.2, rfl⟩
  · rename_i h
    simp only [Bool.and_eq_true, decide_eq_true_eq] at h
    exact .inr ⟨h, rfl⟩

/-- What R185 step 3b does. -/
theorem countRepeat_cases (s : State) :
    (0 < s.repeatCtr.toNat ∧ countRepeat s = { s with repeatCtr := s.repeatCtr - 1 }) ∨
    (s.repeatCtr.toNat = 0 ∧ countRepeat s = s) := by
  unfold countRepeat
  split
  · rename_i h
    exact .inl ⟨h, rfl⟩
  · exact .inr ⟨by omega, rfl⟩

/-- What R185 step 3c does. -/
theorem dispatchLine_cases (r : Nat) (s : State) :
    (s.repeatCtr = 0 ∧ dispatchLine r s = rastEvent (BitVec.ofNat 16 r) (bandSlotAt s s.bandPtr.toNat) s) ∨
    (s.repeatCtr ≠ 0 ∧ dispatchLine r s = s) := by
  unfold dispatchLine
  split
  · exact .inl ⟨‹_›, rfl⟩
  · exact .inr ⟨‹_›, rfl⟩

/-- What R185 does. -/
theorem chooseRaster_cases (s : State) :
    (s.timing.visible s.vline = false ∧ chooseRaster s = s) ∨
    (s.timing.visible s.vline = true ∧ (goLive (s.timing.rline s.vline) s).live = false ∧
      chooseRaster s = clearShapes (goLive (s.timing.rline s.vline) s)) ∨
    (s.timing.visible s.vline = true ∧ (goLive (s.timing.rline s.vline) s).live = true ∧
      chooseRaster s = dispatchLine (s.timing.rline s.vline)
        (countRepeat (stepBand (s.timing.rline s.vline) (goLive (s.timing.rline s.vline) s)))) := by
  unfold chooseRaster
  cases hv : s.timing.visible s.vline
  · exact .inl ⟨rfl, by simp⟩
  · cases hl : (goLive (s.timing.rline s.vline) s).live
    · exact .inr (.inl ⟨rfl, rfl, by simp [hl]⟩)
    · exact .inr (.inr ⟨rfl, rfl, by simp [hl]⟩)

/-- A field that none of the three events writes is not written by the first three sub-steps of a `Tick`. -/
theorem tickEvents_frame {α : Type} (field : State → α) (hSav : ∀ s, field (savEvent s) = field s)
    (hEav : ∀ s, field (eavEvent s) = field s) (hBeat : ∀ s, field (dmaBeat s) = field s) (s : State) :
    field (tickEvents s) = field s := by
  have later : ∀ (s : State) (f : State → State), (∀ s, field (f s) = field s) →
      field (thenDo s f) = field s := by
    intro s f hf
    unfold thenDo
    split
    · rfl
    · exact hf s
  have guarded : ∀ (c : State → Bool) (f : State → State), (∀ s, field (f s) = field s) →
      ∀ s, field (if c s then f s else s) = field s := by
    intro c f hf s
    split
    · exact hf s
    · rfl
  unfold tickEvents
  rw [later _ _ (guarded _ _ hBeat), later _ _ (guarded _ _ hEav), guarded _ _ hSav]

/-- When `SAV` is due (R126). -/
theorem savDue_iff (s : State) :
    savDue s = true ↔ s.evtMask = false ∧ s.hcount.toNat = s.timing.mSav ∧ s.timing.visible s.vline = true := by
  simp [savDue, and_assoc]

/-- When `EAV` is due (R126). -/
theorem eavDue_iff (s : State) : eavDue s = true ↔ s.evtMask = false ∧ s.hcount.toNat = s.timing.mEav := by
  simp [eavDue]

/-- When a beat is due (R126). -/
theorem beatDue_iff (s : State) : beatDue s = true ↔ s.dmaActive = true ∧ s.hcount.toNat = s.dmaNext := by
  simp [beatDue]

/-- When the gate countdown belongs to a `Tick` (R157 sub-step 4). -/
theorem gateHeld_iff (s : State) : gateHeld s = true ↔ ∃ rem target, s.hop = .gateHold rem target := by
  unfold gateHeld
  cases s.hop <;> simp

/-- A `Tick` in which no event is due performs none (R157). -/
theorem tickEvents_none {s : State} (hSav : savDue s = false) (hEav : eavDue s = false) (hBeat : beatDue s = false) :
    tickEvents s = s := by
  simp [tickEvents, thenDo, hSav, hEav, hBeat]

/-- A list is well-formed when it covers the active region and no band is empty (R292). -/
theorem bandsWellFormed_iff (s : State) (n : Nat) :
    bandsWellFormed s n = true ↔ bandsCover s n = true ∧ bandsNonEmpty s n = true := by
  simp [bandsWellFormed]

/-- What covering says (B1, B2, B4, B5, B6 of R292). -/
theorem bandsCover_iff (s : State) (n : Nat) :
    bandsCover s n = true ↔ (1 ≤ n ∧ n ≤ 16) ∧ bandStart (bandRangeAt s 0) = 0 ∧
      (∀ i, i < n - 1 → bandEnd (bandRangeAt s i) = bandStart (bandRangeAt s (i + 1))) ∧
      bandEnd (bandRangeAt s (n - 1)) = s.timing.vVideo ∧ ∀ i, i < n → (bandSlotAt s i).toNat < 16 := by
  simp [bandsCover, and_assoc]

/-- What having no empty band says (B3 of R292). -/
theorem bandsNonEmpty_iff (s : State) (n : Nat) :
    bandsNonEmpty s n = true ↔
      ∀ i, i < n → (bandStart (bandRangeAt s i)).toNat < (bandEnd (bandRangeAt s i)).toNat := by
  simp [bandsNonEmpty]

/-- With a visible line, the list of a good state inside a scope is well-formed whatever the host operation (I11). -/
theorem bandsWellFormed_of_visible {s : State} {n : Nat} (hCover : bandsCover s n = true)
    (hEmpty : bandsNonEmpty s n = true ∨ (s.timing.vVideo = 0 ∧ s.bandN = 1)) (hv : s.timing.vVideo ≠ 0) :
    bandsWellFormed s n = true :=
  (bandsWellFormed_iff s n).2 ⟨hCover, hEmpty.resolve_right fun h => hv h.1⟩

/-- What the arithmetic of a valid descriptor gives: the matches of a line are in this order, and a frame has a
blanking line. -/
theorem Timing.valid_order {t : Timing} (h : t.valid = true) :
    1 ≤ t.cpp.toNat ∧ t.mSav < t.mPix0 ∧ t.mPix0 ≤ t.mEav ∧ t.mEav < t.period ∧ t.period ≤ 65535 ∧
    1 ≤ t.vb ∧ t.vb + t.vVideo.toNat = t.vTotal.toNat := by
  have pos : ∀ {n : Nat} {x : BitVec n}, x ≠ 0 → 1 ≤ x.toNat := by
    intro n x hx
    rcases Nat.eq_zero_or_pos x.toNat with h | h
    · exact absurd (BitVec.eq_of_toNat_eq (by simpa using h)) hx
    · exact h
  simp only [Timing.valid, Bool.and_eq_true, decide_eq_true_eq, bne_iff_ne] at h
  obtain ⟨⟨⟨⟨hc, ⟨⟨hb, hf⟩, hvb⟩, hvf⟩, hp⟩, hh⟩, hv⟩ := h
  replace hc := pos hc
  replace hb := pos hb
  replace hf := pos hf
  replace hvb := pos hvb
  replace hvf := pos hvf
  refine ⟨hc, ?_, ?_, ?_, hp, ?_, ?_⟩
  · exact Nat.mul_lt_mul_of_pos_left (by omega) hc
  · exact Nat.mul_le_mul_left _ (by omega)
  · exact Nat.mul_lt_mul_of_pos_left (by omega) hc
  · unfold Timing.vb; omega
  · unfold Timing.vb; omega

/-- What a running `TICK` does, step by step (R157). -/
theorem tickStep_running {s : State} (hf : s.faulted = false) (hr : s.timRun = true) :
    tickStep s = tickHost (gateHeld s) (tickEvents s) := by
  simp [tickStep, hf, hr]

theorem tickStep_stopped {s : State} (h : s.faulted = true ∨ s.timRun = false) : tickStep s = s := by
  rcases h with h | h <;> simp [tickStep, h]

/-- What a fault in sub-steps 1 to 3 leaves of a `TICK`. -/
theorem tickHost_faulted {s : State} (h : s.faulted = true) (held : Bool) : tickHost held s = s := by
  simp [tickHost, thenDo, h]

theorem tickHost_running {s : State} (h : s.faulted = false) (held : Bool) :
    tickHost held s = countTick (progress (if held then gateCountdown s else s)) := by
  cases held <;> simp [tickHost, thenDo, h]

/-- Every step but reset has a meaning for its operation. -/
theorem decodeInput_eq_none {x : Input} : decodeInput x = none ↔ x = .reset := by
  cases x with
  | tick => simp [decodeInput]
  | reset => simp [decodeInput]
  | read o n => simp [decodeInput]
  | write o n v =>
    simp only [decodeInput]
    split
    · split <;> simp
    · simp

/-- What one step of the machine does (R8). -/
theorem step_cases (s : State) :
    (nextInput s = .reset ∧ step s = .next (resetStep (takeInput s))) ∨
    (∃ i, decodeInput (nextInput s) = some i ∧ step s = exec i (takeInput s)) := by
  unfold step
  split
  · exact .inr ⟨_, ‹_›, rfl⟩
  · exact .inl ⟨decodeInput_eq_none.1 ‹_›, rfl⟩

end Sys2Proof.Machine
end

