-- ==== Sys2Proof/Laws/Bus.lean ====
section
/-! SUPPORT. Everything a bus operation can do. -/

namespace Sys2Proof.Machine

/-- Everything a bus write can do (R91). -/
theorem writeStep_cases (o : BitVec 13) (w : Width) (v : Word) (s : State) :
    (s.faulted = true ∧ writeStep o w v s = s) ∨
    (s.faulted = false ∧ writeStep o w v s = raiseFault .illegalOp (accessInfo o) s) ∨
    (s.faulted = false ∧ target s.params o w = .reg .cmd ∧ writeStep o w v s = commandWrite v s) ∨
    (∃ r, s.faulted = false ∧ target s.params o w = .reg r ∧ regWritable r s = true ∧
      writeStep o w v s = progress (regWrite r v s)) ∨
    (∃ k, s.faulted = false ∧ target s.params o w = .window k ∧ s.rastBusy = true ∧
      writeStep o w v s = progress (storeBuf s.work k w.bytes v s)) := by
  unfold writeStep
  cases hf : s.faulted with
  | true => exact .inl ⟨rfl, rfl⟩
  | false =>
    refine .inr ?_
    rw [if_neg (by simp)]
    cases ht : target s.params o w with
    | illegal => exact .inl ⟨rfl, rfl⟩
    | window k =>
      cases hb : s.rastBusy with
      | false => exact .inl ⟨rfl, rfl⟩
      | true => exact .inr (.inr (.inr ⟨k, rfl, rfl, rfl, rfl⟩))
    | reg r =>
      cases hw : regWritable r s with
      | false =>
        cases r <;> first
          | exact .inr (.inl ⟨rfl, rfl, rfl⟩)
          | exact .inl ⟨rfl, if_neg (by simp [hw])⟩
      | true =>
        refine .inr (.inr (.inl ⟨r, rfl, rfl, hw, ?_⟩))
        cases r <;> exact if_pos hw

/-- Everything a bus read can do (R90). -/
theorem readStep_cases (o : BitVec 13) (w : Width) (s : State) :
    (∃ v, readStep o w s = { s with rdata := v }) ∨
    (s.faulted = false ∧ target s.params o w = .illegal ∧
      readStep o w s = { raiseFault .illegalOp (accessInfo o) s with rdata := 0 }) := by
  unfold readStep
  cases ht : target s.params o w with
  | reg r => exact .inl ⟨_, rfl⟩
  | window k => exact .inl ⟨_, rfl⟩
  | illegal =>
    cases hf : s.faulted
    · exact .inr ⟨rfl, rfl, by simp⟩
    · exact .inl ⟨0, by simp [hf]⟩

/-- A window access lies wholly inside the window, at a multiple of its width (R86). -/
theorem target_window {p : Params} {o : BitVec 13} {w : Width} {k : Nat} (h : target p o w = .window k) :
    k = o.toNat - 0x1000 ∧ 0x1000 ≤ o.toNat ∧ k % w.bytes = 0 ∧ k + w.bytes ≤ p.bufBytes := by
  unfold target at h
  dsimp only at h
  split at h
  · split at h
    · rename_i h1 h2
      simp only [Target.window.injEq] at h
      subst h
      exact ⟨rfl, h1, h2⟩
    · simp at h
  · split at h
    · split at h <;> simp at h
    · simp at h

/-- The offset of `CMD` is 0 and its only access a word (R52, R86). -/
theorem target_cmd (p : Params) : target p 0#13 .word = .reg .cmd := rfl

/-- Performing a command word that decodes. -/
theorem commandWrite_ok {v : Word} {i : Instr} (h : decodeCmd v = .ok i) (s : State) :
    commandWrite v s = performCommand i s := by
  simp [commandWrite, h]

/-- A command word that does not decode (R124). -/
theorem commandWrite_error {v : Word} {e : DecodeError} (h : decodeCmd v = .error e) (s : State) :
    commandWrite v s = raiseFault .illegalOp v s := by
  simp [commandWrite, h]

end Sys2Proof.Machine
end

