-- ==== Sys2Proof/Laws/PerInstr.lean ====
section
/-! SUPPORT. Families of facts about every operation as syntax, one lemma per constructor of `Instr`. -/

namespace Sys2Proof.Laws.CommandWords

/-- The word of a command fits the match and mask columns of R122. -/
def Statement (i : Instr) : Prop := ∀ w, encodeCmd i = some w → isCommandWord w = true

theorem new : Statement .new := by intro w h; cases h; decide
theorem cfgTiming : Statement .cfgTiming := by intro w h; cases h; decide
theorem stopSync : Statement .stopSync := by intro w h; cases h; decide
theorem rastOpen : Statement .rastOpen := by intro w h; cases h; decide
theorem bandsOpen (n : BitVec 8) : Statement (.bandsOpen n) := by
  intro w h
  cases h
  revert n
  decide
theorem rastClose : Statement .rastClose := by intro w h; cases h; decide
theorem syncVblank : Statement .syncVblank := by intro w h; cases h; decide
theorem videoOn : Statement .videoOn := by intro w h; cases h; decide
theorem videoOff : Statement .videoOff := by intro w h; cases h; decide
theorem rastDone : Statement .rastDone := by intro w h; cases h; decide
theorem rastFail : Statement .rastFail := by intro w h; cases h; decide
theorem tick : Statement .tick := by intro w h; cases h
theorem sav : Statement .sav := by intro w h; cases h
theorem eav : Statement .eav := by intro w h; cases h
theorem rast (r : BitVec 16) (k : BitVec 8) : Statement (.rast r k) := by intro w h; cases h
theorem dmabeat : Statement .dmabeat := by intro w h; cases h
theorem rd (offset : BitVec 13) (width : Width) : Statement (.rd offset width) := by intro w h; cases h
theorem wr (offset : BitVec 13) (width : Width) (data : BitVec 32) : Statement (.wr offset width data) := by
  intro w h; cases h

end Sys2Proof.Laws.CommandWords
end

