-- ==== Sys2Proof/Tests/Slice0.lean ====
section
/-! SUPPORT. The model's own tests: the well-formedness smoke tests, a decoded word for every command, at most two small
tests for each operation, and for each statement with hypotheses a state and operands that meet them. Expected
values are those of `95_test_vectors.md`, whose sections the comments name. -/

namespace Sys2Proof.Tests

open Sys2Proof.Machine Sys2Proof.Safety

/-! ### Well-formedness -/

theorem test_wf_refuses_absent_slot : (Instr.rast 0 16).wellFormed = false := by decide
theorem test_wf_accepts_last_slot : (Instr.rast 0xFFFF 15).wellFormed = true := by decide
theorem test_wf_refuses_wide_byte : (Instr.wr 0x1000 .byte 0x100).wellFormed = false := by decide
theorem test_wf_refuses_wide_half : (Instr.wr 0x1000 .half 0x10000).wellFormed = false := by decide
theorem test_wf_refuses_command_as_write : (Instr.wr 0 .word 0x050000FF).wellFormed = false := by decide
theorem test_wf_accepts_illegal_command_word : (Instr.wr 0 .word 0x0A000000).wellFormed = true := by decide

/-! ### Decoding: every command's word, `op` in bits 31:24 and `arg` in bits 23:0 (R121, vectors 2.1) -/

theorem test_decode_new : decodeTableWord 32 0b00000001_000000000000000000000000 = some .new := by decide
theorem test_decode_cfg_timing :
    decodeTableWord 32 0b00000010_000000000000000000000000 = some .cfgTiming := by decide
theorem test_decode_stop_sync :
    decodeTableWord 32 0b00000011_000000000000000000000000 = some .stopSync := by decide
theorem test_decode_rast_open :
    decodeTableWord 32 0b00000100_000000000000000000000000 = some .rastOpen := by decide
theorem test_decode_bands_open :
    decodeTableWord 32 0b00000101_0000000000000000_10000001 = some (.bandsOpen 129) := by decide
theorem test_decode_rast_close :
    decodeTableWord 32 0b00000110_000000000000000000000000 = some .rastClose := by decide
theorem test_decode_sync_vblank :
    decodeTableWord 32 0b00000111_000000000000000000000000 = some .syncVblank := by decide
theorem test_decode_video_on :
    decodeTableWord 32 0b00001000_000000000000000000000000 = some .videoOn := by decide
theorem test_decode_video_off :
    decodeTableWord 32 0b00001001_000000000000000000000000 = some .videoOff := by decide
theorem test_decode_rast_done :
    decodeTableWord 32 0b00010000_000000000000000000000000 = some .rastDone := by decide
theorem test_decode_rast_fail :
    decodeTableWord 32 0b00010001_000000000000000000000000 = some .rastFail := by decide
theorem test_decode_refuses_reserved_op : decodeTableWord 32 0x80000004 = none := by decide
theorem test_decode_refuses_argument : decodeTableWord 32 0x05000100 = none := by decide
theorem test_decode_steps :
    decodeInput .tick = some .tick ∧ decodeInput (.read 0x01C .word) = some (.rd 0x01C .word) ∧
    decodeInput (.write 0x1000 .byte 0xFFFFFF10) = some (.wr 0x1000 .byte 0x10) ∧
    decodeInput .reset = none := by decide

/-! ### States on DTINY (`95_test_vectors.md`, `BUF_BYTES = 8`) -/

/-- The parameters of the DTINY vectors. -/
def tinyParams : Params := { Params.default with bufBytes := 8 }

/-- The descriptor DTINY. -/
def dtiny : Timing :=
  { cpp := 2, hpol := true, vpol := true, hSync := 1, hBp := 1, hVideo := 4, hFp := 1, hTotal := 7,
    vSync := 1, vBp := 1, vVideo := 3, vFp := 1, vTotal := 6 }

/-- After reset. -/
def fresh0 : State := State.initial tinyParams

/-- After `NEW` and the seven writes of DTINY. -/
def staged : State :=
  { fresh0 with
    init := true, tdCtrl := 0x302, tdH0 := 0x00010001, tdH1 := 0x00010004, tdH2 := 7,
    tdV0 := 0x00010001, tdV1 := 0x00010003, tdV2 := 6 }

/-- After `CFG_TIMING`, at a place in the frame. -/
def syncing (hcount vline : Half) : State :=
  { staged with
    timing := dtiny, dstate := .syncGen, timRun := true, evtMask := false, pinsDriven := true, shiftDiv := 2,
    hcount := hcount, vline := vline }

/-- After `RAST_OPEN` with a closure in slot 0. -/
def opened (hcount vline : Half) : State :=
  { syncing hcount vline with
    dstate := .rasterLoaded, bandN := 1, slotFn := (Vector.replicate 16 0).set 0 0xC0DE0001,
    bandRange := (Vector.replicate 16 0).set 0 0x00030000, tags := (Vector.replicate 16 .empty).set 0 .loaded }

/-- In a scope, visible line 0 being rasterized, with the context 0..4 for one line. -/
def busyAt (hcount : Half) : State :=
  { opened hcount 3 with
    live := true, rastBusy := true, rastFn := 0xC0DE0001, ctxRange := 0x00040000, ctxMode := 1 }

/-- In a scope, line 0 committed to `BUF[0]`, of which bytes 0 to 3 are written. -/
def committed (hcount : Half) : State :=
  { opened hcount 3 with
    live := true, fresh := true, repeatCtr := 1, ctx0 := { start := 0, stop := 4, valid := true },
    mem := [(0, 0x00), (1, 0xFF), (2, 0x00), (3, 0xFF)] }

/-- The transfer of that line, before its beat of byte `k`. -/
def moving (hcount : Half) (k : Half) : State :=
  { committed hcount with
    fresh := false, work := true, dmaActive := true, dmaPtr := k, dmaRem := 4 - k, dmaDiv := 2,
    dmaNext := 4 + 2 * k.toNat }

/-- A host operation in progress. -/
def waiting (op : HostOp) (s : State) : State := { s with hop := op }

/-- A gate operation in its hold phase. -/
def holding (rem : Nat) (s : State) : State := { s with hop := .gateHold rem true, mtxOwner := .thread }

/-- The next state; the given state where there is none. -/
def after (i : Instr) (s : State) : State :=
  match exec i s with
  | .next t => t
  | .fault _ => s
  | .refused _ => s

/-! ### One or two tests for each operation -/

-- 2.9, row 1.
theorem test_new : statusWord (after .new fresh0) = 0x00000041 := by decide
-- 2.9, row 3.
theorem test_new_twice :
    statusWord (after .new staged) = 0x00000051 ∧ (after .new staged).faultInfo = 0x01000000 := by decide
-- P2: CFG_TIMING on DTINY, and the pins of 2.3 and 2.4 after it.
theorem test_cfg_timing : statusWord (after .cfgTiming staged) = 0x000400A3 ∧
    (after .cfgTiming staged).timing = dtiny ∧ hsyncPin (after .cfgTiming staged) = .high ∧
    vsyncPin (after .cfgTiming staged) = .low := by decide
-- 2.3, row 1: all TD_* = 0.
theorem test_cfg_timing_refused :
    let t := after .cfgTiming { fresh0 with init := true }
    t.result = 1 ∧ statusWord t = 0x00000041 := by decide
-- R156: STOP_SYNC masks the events and leaves the pins driven.
theorem test_stop_sync :
    let t := after .stopSync (syncing 5 3)
    t.dstate = .idle ∧ t.timRun = false ∧ t.evtMask = true ∧ t.pinsDriven = true := by decide
-- 2.9, row 8, on DTINY.
theorem test_stop_sync_in_scope : (after .stopSync (opened 0 0)).faultInfo = 0x03000000 := by decide
-- 2.8: RAST_OPEN.
theorem test_rast_open :
    let t := after .rastOpen (syncing 0 0)
    statusWord t = 0x000400A5 ∧ t.bandRange[0] = 0x00030000 ∧ slotTagsWord t = 1 ∧ t.bandN = 1 := by decide
-- R252, corner case: with no visible line the one band is empty, and only clause B3 of R292 fails.
theorem test_rast_open_no_line :
    let t := after .rastOpen { syncing 0 0 with timing := { dtiny with vVideo := 0, vTotal := 3 } }
    t.faulted = false ∧ t.bandN = 1 ∧ bandsCover t 1 = true ∧ bandsNonEmpty t 1 = false := by decide
-- P4: BANDS_OPEN 2.
theorem test_bands_open :
    let t := after (.bandsOpen 2) { syncing 0 0 with
      bandRange := ((Vector.replicate 16 0).set 0 0x00010000).set 1 0x00030001
      bandSlot := (Vector.replicate 16 0).set 1 1 }
    statusWord t = 0x000400A5 ∧ slotTagsWord t = 3 ∧ t.bandN = 2 := by decide
-- 2.10: n = 17 is refused.
theorem test_bands_open_17 : (after (.bandsOpen 17) (syncing 0 0)).result = 2 := by decide
-- P6: RAST_CLOSE while a rasterization is in flight (tick 41).
theorem test_rast_close_drains : statusWord (after .rastClose (busyAt 13)) = 0x0004042D := by decide
-- P4: RAST_CLOSE with nothing in flight.
theorem test_rast_close : (after .rastClose (opened 0 0)).dstate = .syncGen ∧
    (after .rastClose (opened 0 0)).hop = .none := by decide
-- 2.9: SYNC_VBLANK before tick 0, and a second one while it waits.
theorem test_sync_vblank : statusWord (after .syncVblank (syncing 0 0)) = 0x000400AB := by decide
theorem test_sync_vblank_busy :
    (after .syncVblank (after .syncVblank (syncing 0 0))).faultInfo = 0x07000000 := by decide
-- 2.7, row 1.
theorem test_video_on : (after .videoOn (syncing 0 0)).hop = .waitVbl 0 .gateOn := by decide
-- 2.7, row 4.
theorem test_video_off : statusWord (after .videoOff { syncing 0 0 with videoEn := true }) = 0x000402AB := by decide
-- P2, tick 40: the commit after the dispatch (without the pending VIDEO_ON: P3).
theorem test_rast_done : statusWord (after .rastDone (busyAt 13)) = 0x00054825 ∧
    (after .rastDone (busyAt 13)).ctx0 = { start := 0, stop := 4, valid := true } := by decide
-- 2.6: override 0 is fault 2.
theorem test_rast_done_range :
    (after .rastDone { busyAt 13 with ctxMode := 0x00010001 }).fault = 2 := by decide
-- 2.6: RAST_FAIL on DTINY.
theorem test_rast_fail : statusWord (after .rastFail (busyAt 13)) = 0x00044435 ∧
    (after .rastFail (busyAt 13)).fault = 5 := by decide
-- P2, tick 13: the line wraps.
theorem test_tick_wraps : (after .tick (syncing 13 1)).hcount = 0 := by decide
-- P5, tick 44: the deadline miss; hcount does not move.
theorem test_tick_deadline : statusWord (after .tick (busyAt 2)) = 0x00044435 ∧
    (after .tick (busyAt 2)).hcount = 2 := by decide
-- P3, tick 44: SWAP and ARM.
theorem test_sav : statusWord (after .sav (committed 2)) = 0x00057025 ∧
    (after .sav (committed 2)).dmaNext = 4 := by decide
-- P3, tick 40.
theorem test_eav_dispatches : statusWord (after .eav (opened 12 2)) = 0x00044425 ∧
    (after .eav (opened 12 2)).rastFn = 0xC0DE0001 := by decide
-- 2.11: the vblank counter overflows; `vline` has moved.
theorem test_eav_overflow :
    let t := after .eav { syncing 12 5 with vblCount := 0xFFFFFFFF }
    t.fault = 7 ∧ t.vline = 0 ∧ statusWord t = 0x000400B3 := by decide
-- R186: the context of a dispatch is fresh.
theorem test_rast : (after (.rast 2 0) (opened 12 5)).rastLine = 2 ∧
    (after (.rast 2 0) { opened 12 5 with ctxMode := 7 }).ctxMode = 1 := by decide
-- P2, tick 48: byte 1 is 0xFF.
theorem test_dmabeat : (after .dmabeat (moving 6 1)).videoOut = 0xFF ∧
    (after .dmabeat (moving 6 1)).dmaPtr = 2 := by decide
-- P2, tick 52: the last byte.
theorem test_dmabeat_last : (after .dmabeat (moving 10 3)).dmaActive = false := by decide
-- 2.6: POS of the RAST_FAIL vector.
theorem test_rd_pos : (after (.rd 0x018 .word) (busyAt 13)).rdata = 0x0003000D := by decide
-- 2.2: an unmapped read answers 0 and is a fault.
theorem test_rd_unmapped :
    let t := after (.rd 0x044 .word) (syncing 0 0)
    t.rdata = 0 ∧ t.fault = 6 ∧ t.faultInfo = 0x80000044 := by decide
-- 2.2: the byte order of the window.
theorem test_wr_window : (after (.wr 0x1000 .word 0x44332211) (busyAt 13)).mem =
    [(0, 0x11), (1, 0x22), (2, 0x33), (3, 0x44)] := by decide
-- 2.2: a write past the window, on DTINY.
theorem test_wr_past_window : (after (.wr 0x1008 .byte 0xAB) (busyAt 13)).faultInfo = 0x80001008 := by decide

/-! ### What the host's two questions rest on -/

theorem test_fetch_runs_cfg_timing :
    step (State.reset.withFetchWord 32 0x02000000) = exec .cfgTiming { State.reset with stepNo := 1 } := by rfl

/-! ### Witnesses: for each statement with hypotheses, a case that meets all of them together, clause by clause -/

theorem witness_decoding_an_encoded_operation :
    (Instr.bandsOpen 255).wellFormed = true ∧
    encode (.bandsOpen 255) = some (.write 0 .word 0x050000FF) ∧
    (Instr.wr 0x1FFF .byte 0xFF).wellFormed = true ∧
    encode (.wr 0x1FFF .byte 0xFF) = some (.write 0x1FFF .byte 0xFF) := by decide

theorem witness_illegal_command_word :
    fresh0.faulted = false ∧ illegalWord fresh0.params 0x0A000000 ∧ illegalWord fresh0.params 0x05000100 ∧
    illegalWord fresh0.params 0x01000001 ∧
    illegalWord { tinyParams with hasBands := false } 0x05000001 := by
  unfold illegalWord; decide

theorem witness_writing_a_command_word :
    encodeCmd .new = some 0x01000000 ∧ encodeCmd (.bandsOpen 255) = some 0x050000FF := by decide

theorem witness_step_runs :
    ({ syncing 0 0 with sched := [.reset, .tick] } : State).sched = .reset :: [.tick] ∧
    ({ syncing 0 0 with sched := [.write 0 .word 0x04000000, .tick] } : State).sched =
      .write 0 .word 0x04000000 :: [.tick] ∧
    decodeInput (.write 0 .word 0x04000000) = some .rastOpen ∧ Instr.rastOpen.wellFormed = true ∧
    (syncing 0 0).sched = [] := by decide

theorem witness_placed_word : decodeTableWord 32 0x11000000 = some .rastFail := by decide

theorem witness_reset_step :
    ({ busyAt 13 with sched := [.reset, .tick] } : State).sched = .reset :: [.tick] := by rfl

/-- A faulted machine with work asked for. -/
def dead : State := raiseFault .rasterizerFault 0 { busyAt 13 with sched := [.write 0 .word 0x01000000] }

theorem witness_faulted_machine :
    dead.faulted = true ∧ (∀ o w, Instr.tick ≠ .rd o w) ∧
    dead.sched = .write 0 .word 0x01000000 :: [] ∧ Input.write 0 .word 0x01000000 ≠ .reset :=
  ⟨rfl, (fun _ _ h => by cases h), rfl, by decide⟩

theorem witness_no_isr_mutex : ∃ t, exec .tick (busyAt 2) = .next t ∧ (busyAt 2).fault ≠ 4 :=
  ⟨_, rfl, by decide⟩

theorem witness_illegal_command :
    fresh0.faulted = false ∧ encodeCmd .cfgTiming = some 0x02000000 ∧ ¬ legalHere .cfgTiming fresh0 :=
  ⟨rfl, rfl, fun h => nomatch h.1⟩

theorem witness_new : fresh0.faulted = false ∧ fresh0.hop = .none ∧ fresh0.init = false ∧
    staged.faulted = false ∧ staged.hop = .none ∧ staged.init = true := by decide

theorem witness_cfg_timing_illegal :
    fresh0.faulted = false ∧ ¬ (fresh0.init = true ∧ fresh0.dstate = .idle ∧ fresh0.hop = .none) := by decide

theorem witness_cfg_timing_starts :
    staged.faulted = false ∧ legalHere .cfgTiming staged ∧ (stagedTiming staged).valid = true ∧
    fresh0.faulted = false ∧ ¬ legalHere .cfgTiming fresh0 :=
  ⟨rfl, ⟨rfl, rfl, rfl⟩, by decide, rfl, fun h => nomatch h.1⟩

theorem witness_cfg_timing_refuses :
    let s := { staged with tdCtrl := 0x300 }
    s.faulted = false ∧ legalHere .cfgTiming s ∧ (stagedTiming s).valid = false :=
  ⟨rfl, ⟨rfl, rfl, rfl⟩, by decide⟩

theorem witness_stop_sync :
    (syncing 0 0).faulted = false ∧ legalHere .stopSync (syncing 0 0) ∧
    (opened 0 0).faulted = false ∧ ¬ legalHere .stopSync (opened 0 0) :=
  ⟨rfl, ⟨rfl, rfl, rfl⟩, rfl, fun h => nomatch h.2.1⟩

theorem witness_rast_open : (syncing 0 0).faulted = false ∧ legalHere .rastOpen (syncing 0 0) ∧
    (opened 0 0).faulted = false ∧ ¬ legalHere .rastOpen (opened 0 0) :=
  ⟨rfl, ⟨rfl, rfl, rfl⟩, rfl, fun h => nomatch h.2.1⟩

theorem witness_bands_open :
    let s : State := { syncing 0 0 with bandRange := (Vector.replicate 16 0).set 0 0x00030000 }
    s.faulted = false ∧ legalHere (.bandsOpen 1) s ∧ bandsWellFormed s 1 = true ∧
    legalHere (.bandsOpen 17) s ∧ bandsWellFormed s 17 = false ∧
    ¬ legalHere (.bandsOpen 1) { s with params := { tinyParams with hasBands := false } } :=
  ⟨rfl, ⟨rfl, rfl, rfl, rfl⟩, by decide, ⟨rfl, rfl, rfl, rfl⟩, by decide, fun h => nomatch h.1⟩

theorem witness_band_list : ∃ t, exec (.wr 0x060 .word 5) (opened 0 0) = .next t ∧
    (opened 0 0).dstate = .rasterLoaded ∧ t.dstate = .rasterLoaded ∧
    bandsWellFormed (opened 0 0) (opened 0 0).bandN.toNat = true :=
  ⟨_, rfl, by decide, by decide, by decide⟩

theorem witness_rast_close :
    (opened 0 0).faulted = false ∧ legalHere .rastClose (opened 0 0) ∧ (opened 0 0).rastBusy = false ∧
    (busyAt 13).faulted = false ∧ legalHere .rastClose (busyAt 13) ∧ (busyAt 13).rastBusy = true :=
  ⟨rfl, ⟨rfl, rfl, rfl⟩, rfl, rfl, ⟨rfl, rfl, rfl⟩, rfl⟩

theorem witness_scope_ends : ∃ t, exec .rastClose (opened 0 0) = .next t ∧ (opened 0 0).init = true ∧
    (opened 0 0).dstate = .rasterLoaded ∧ t.dstate ≠ .rasterLoaded :=
  ⟨_, rfl, by decide, by decide, by decide⟩

theorem witness_waits : (syncing 0 0).faulted = false ∧ legalHere .syncVblank (syncing 0 0) ∧
    legalHere .videoOn (opened 0 0) ∧ legalHere .videoOff (syncing 0 0) :=
  ⟨rfl, ⟨rfl, .inl rfl, rfl⟩, ⟨rfl, .inr rfl, rfl⟩, ⟨rfl, .inl rfl, rfl⟩⟩

theorem witness_progress :
    fresh0.hop = .none ∧
    ((waiting .drain (busyAt 13)).hop = .drain ∧ (waiting .drain (busyAt 13)).rastBusy = true) ∧
    ((waiting .drain (opened 0 0)).hop = .drain ∧ (waiting .drain (opened 0 0)).rastBusy = false) ∧
    (let s := waiting (.waitVbl 0 .gateOn) (syncing 0 0);
      s.hop = .waitVbl 0 .gateOn ∧ (0 : Word).toNat ≤ 0 ∧ s.vblCount.toNat ≤ (0 : Word).toNat) ∧
    (let s := waiting (.waitVbl 0 .done) { syncing 0 0 with vblCount := 1 };
      s.hop = .waitVbl 0 .done ∧ (0 : Word).toNat < s.vblCount.toNat) ∧
    (let s := waiting (.waitVbl 0 .gateOn) { syncing 0 0 with vblCount := 1 };
      s.hop = .waitVbl 0 .gateOn ∧ (0 : Word).toNat < s.vblCount.toNat) ∧
    (let s := waiting (.waitVbl 0 .gateOff) { syncing 0 0 with vblCount := 1 };
      s.hop = .waitVbl 0 .gateOff ∧ (0 : Word).toNat < s.vblCount.toNat) ∧
    (holding 1 (syncing 0 0)).hop = .gateHold 1 true := by decide

/-- Boundary contexts of vectors 2.6 on an 8-byte buffer: `end = BUF_BYTES` commits, `end = BUF_BYTES + 1` does not. -/
theorem witness_rast_done :
    (fresh0.faulted = false ∧ fresh0.rastBusy = false) ∧
    ((busyAt 13).faulted = false ∧ (busyAt 13).rastBusy = true ∧
      badContext { busyAt 13 with ctxRange := 0x00090000 } = true ∧
      badContext { busyAt 13 with ctxMode := 0 } = true ∧
      badContext { busyAt 13 with ctxRange := 0x00050006 } = true) ∧
    (badContext { busyAt 13 with ctxMode := 0x00010001 } = false ∧
      divOutOfRange { busyAt 13 with ctxMode := 0x00010001 } = true) ∧
    (badContext { busyAt 13 with ctxRange := 0x00080000, ctxMode := 0xFF010001 } = false ∧
      divOutOfRange { busyAt 13 with ctxRange := 0x00080000, ctxMode := 0xFF010001 } = false) := by decide

theorem witness_rast_fail :
    (busyAt 13).faulted = false ∧ (busyAt 13).rastBusy = true ∧ fresh0.faulted = false ∧
    fresh0.rastBusy = false := by decide

theorem witness_sav :
    ((holding 1 (syncing 2 3)).faulted = false ∧ (holding 1 (syncing 2 3)).mtxOwner = .thread) ∧
    ((busyAt 2).faulted = false ∧ (busyAt 2).mtxOwner = .free ∧ (busyAt 2).rastBusy = true) ∧
    ((moving 2 0).mtxOwner = .free ∧ (moving 2 0).rastBusy = false ∧ (moving 2 0).dmaActive = true) ∧
    (let s := committed 2;
      s.mtxOwner = .free ∧ s.rastBusy = false ∧ s.dmaActive = false ∧ s.fresh = true ∧ s.work = false ∧
      s.ctx0.valid = true ∧ s.ctx0.start.toNat < s.ctx0.stop.toNat) ∧
    (let s := { committed 2 with ctx0 := { start := 4, stop := 4, valid := true } };
      s.mtxOwner = .free ∧ s.rastBusy = false ∧ s.dmaActive = false ∧
      ¬ (s.ctx0.valid = true ∧ s.ctx0.start.toNat < s.ctx0.stop.toNat)) := by decide

theorem witness_eav_blanking :
    ((syncing 12 1).faulted = false ∧ nextLine (syncing 12 1) = 2 ∧ dtiny.visible 2 = false) ∧
    (nextLine (syncing 12 5) = 0 ∧ dtiny.visible 0 = false ∧ (syncing 12 5).vblCount ≠ 0xFFFFFFFF) ∧
    ({ syncing 12 5 with vblCount := 0xFFFFFFFF } : State).vblCount = 0xFFFFFFFF := by decide

theorem witness_eav_mutex :
    let s := holding 1 (syncing 12 2)
    s.faulted = false ∧ s.mtxOwner = .thread ∧ nextLine s = 3 ∧ s.timing.visible 3 = true := by decide

/-- No rasterizer; a repeat; a dispatch; a late rasterizer; a band boundary. -/
theorem witness_eav_visible :
    (let s := syncing 12 2;
      s.faulted = false ∧ s.mtxOwner = .free ∧ s.vline.toNat + 1 ≠ s.timing.vTotal.toNat ∧ s.vline + 1 ≠ 0 ∧
      s.timing.visible (s.vline + 1) = true ∧ s.live = false ∧ s.dstate ≠ .rasterLoaded) ∧
    (let s := { committed 12 with repeatCtr := 2 };
      s.timing.visible (s.vline + 1) = true ∧ s.live = true ∧ ¬ s.bandPtr.toNat + 1 < s.bandN.toNat ∧
      s.repeatCtr - 1 ≠ 0) ∧
    (let s := committed 12;
      s.live = true ∧ s.repeatCtr - 1 = 0 ∧ s.rastBusy = false) ∧
    (let s := busyAt 12;
      s.live = true ∧ s.repeatCtr = 0 ∧ s.rastBusy = true) ∧
    (let s := { committed 12 with
        repeatCtr := 2, bandN := 2, bandRange := ((Vector.replicate 16 0).set 0 0x00010000).set 1 0x00030001 };
      s.bandPtr.toNat + 1 < s.bandN.toNat ∧
      (s.vline + 1).toNat - 3 = ((bandRangeAt s s.bandPtr.toNat).extractLsb' 16 16).toNat) := by decide

theorem witness_rast : (opened 12 2).faulted = false ∧ (15 : BitVec 8).toNat < 16 ∧
    (opened 12 2).rastBusy = false ∧ (busyAt 12).faulted = false ∧ (busyAt 12).rastBusy = true := by decide

theorem witness_dmabeat : (moving 4 0).faulted = false := by decide

theorem witness_tick :
    dead.faulted = true ∧ fresh0.timRun = false ∧
    (let s := syncing 13 1;
      s.faulted = false ∧ s.timRun = true ∧ s.hop = .none ∧ savDue s = false ∧ eavDue s = false ∧
      s.dmaActive = false ∧ s.hcount.toNat + 1 = s.timing.cpp.toNat * s.timing.hTotal.toNat) ∧
    (let s := syncing 2 1;
      s.faulted = false ∧ s.timRun = true ∧ s.hop = .none ∧ savDue s = false ∧ eavDue s = false ∧
      s.dmaActive = false) ∧
    (let s := waiting (.waitVbl 0 .gateOn) (syncing 13 1);
      s.faulted = false ∧ s.timRun = true ∧ s.hop = .waitVbl 0 .gateOn ∧ s.vblCount.toNat ≤ (0 : Word).toNat ∧
      savDue s = false ∧ eavDue s = false ∧ s.dmaActive = false) ∧
    (let s := waiting .drain (busyAt 13);
      s.faulted = false ∧ s.timRun = true ∧ s.hop = .drain ∧ s.rastBusy = true ∧ savDue s = false ∧
      eavDue s = false ∧ s.dmaActive = false) := by decide

theorem witness_tick_sav :
    (let s := committed 2;
      s.faulted = false ∧ s.timRun = true ∧ s.timing.valid = true ∧ s.evtMask = false ∧
      s.hcount.toNat = s.timing.cpp.toNat * (s.timing.hSync.toNat + s.timing.hBp.toNat - 1) ∧
      s.timing.visible s.vline = true ∧ (after .sav s).faulted = false) ∧
    (busyAt 2).hcount.toNat = (busyAt 2).timing.mSav ∧ (after .sav (busyAt 2)).faulted = true := by decide

theorem witness_tick_eav :
    (let s := opened 12 2;
      s.faulted = false ∧ s.timRun = true ∧ s.timing.valid = true ∧ s.evtMask = false ∧
      s.hcount.toNat =
        s.timing.cpp.toNat * (s.timing.hSync.toNat + s.timing.hBp.toNat + s.timing.hVideo.toNat) ∧
      (after .eav s).faulted = false) ∧
    (after .eav (holding 1 (syncing 12 2))).faulted = true := by decide

theorem witness_tick_beat :
    let s := moving 10 3
    s.faulted = false ∧ s.timRun = true ∧ s.dmaActive = true ∧ s.hcount.toNat = s.dmaNext ∧
    savDue s = false ∧ eavDue s = false := by decide

theorem witness_wait_ends :
    let s := syncing 12 5
    s.faulted = false ∧ s.timRun = true ∧ s.timing.valid = true ∧ s.evtMask = false ∧
    s.hcount.toNat = s.timing.mEav ∧ s.vline.toNat + 1 = s.timing.vTotal.toNat ∧ s.vblCount ≠ 0xFFFFFFFF ∧
    (0 : Word).toNat ≤ s.vblCount.toNat ∧
    (waiting (.waitVbl 0 .done) s).hop = .waitVbl 0 .done ∧
    (waiting (.waitVbl 0 .gateOn) s).hop = .waitVbl 0 .gateOn ∧
    (waiting (.waitVbl 0 .gateOff) s).hop = .waitVbl 0 .gateOff := by decide

theorem witness_gate_holds :
    (let s := holding 1 (syncing 13 0);
      s.faulted = false ∧ s.timRun = true ∧ s.hop = .gateHold 1 true ∧ savDue s = false ∧ eavDue s = false ∧
      s.dmaActive = false) ∧
    (holding 2 (syncing 13 0)).hop = .gateHold 2 true ∧ 2 ≠ 1 := by decide

theorem witness_illegal_access :
    (syncing 0 0).faulted = false ∧ ¬ accessAllowed tinyParams 0x062 .word ∧
    ¬ accessAllowed tinyParams 0x044 .word ∧ ¬ accessAllowed tinyParams 0x060 .half ∧
    ¬ accessAllowed tinyParams 0x1008 .byte ∧ ¬ accessAllowed tinyParams 0x1001 .half ∧
    readOnly 0x004 ∧ readOnly 0x040 ∧
    dead.faulted = true ∧ ¬ accessAllowed dead.params 0x062 .word := by
  unfold accessAllowed mapped readOnly
  exact ⟨rfl, by decide, by decide, by decide, by decide, by decide, by decide, by decide, rfl, by decide⟩

theorem witness_register_writes :
    (busyAt 13).faulted = false ∧ (busyAt 13).rastBusy = true ∧ (busyAt 13).dstate = .rasterLoaded ∧
    (syncing 0 0).faulted = false ∧ (syncing 0 0).rastBusy = false ∧
    (syncing 0 0).dstate ≠ .rasterLoaded := by decide

theorem witness_window_write :
    (busyAt 13).faulted = false ∧ 0x1000 ≤ (0x1004 : BitVec 13).toNat ∧
    accessAllowed (busyAt 13).params 0x1004 .word ∧ accessAllowed (busyAt 13).params 0x1007 .byte ∧
    (busyAt 13).rastBusy = true ∧ (syncing 0 0).faulted = false ∧ (syncing 0 0).rastBusy = false ∧
    accessAllowed (syncing 0 0).params 0x1004 .word := by
  unfold accessAllowed mapped; decide

theorem witness_window_read :
    0x1000 ≤ (0x1006 : BitVec 13).toNat ∧ accessAllowed (busyAt 13).params 0x1006 .half := by
  unfold accessAllowed mapped; decide

/-! ### Witnesses of the invariant: running states that meet it -/

/-- Visible line 0 is about to be dispatched. -/
theorem witness_inv_before_dispatch : Inv (opened 12 2) := by
  refine ⟨by decide, by decide, fun _ => ?_⟩
  constructor
  all_goals first
    | (unfold inVblank; decide)
    | decide
    | (intro _ _ h; cases h)
    | (intro h; cases h)

/-- The rasterizer of line 0 is still running when `SAV` matches. -/
theorem witness_inv_late : Inv (busyAt 2) := by
  refine ⟨by decide, by decide, fun _ => ?_⟩
  constructor
  all_goals first
    | (unfold inVblank; decide)
    | decide
    | (intro _ _ h; cases h)
    | (intro h; cases h)

/-- A gate operation is about to release the mutex. -/
theorem witness_inv_holding : Inv (holding 1 (syncing 13 0)) := by
  refine ⟨by decide, by decide, fun _ => ?_⟩
  constructor
  all_goals first
    | (unfold inVblank; decide)
    | decide
    | exact fun _ => ⟨by unfold inVblank; decide, _, _, rfl⟩
    | (intro _ _ h; cases h; decide)
    | (intro _ _ h; cases h)

/-- A transfer in the middle of a line. -/
theorem witness_inv_moving : Inv (moving 6 1) := by
  refine ⟨by decide, by decide, fun _ => ?_⟩
  constructor
  all_goals first
    | (unfold inVblank; decide)
    | decide
    | (intro _ _ h; cases h)
    | (intro h; cases h)

theorem witness_every_step_keeps : Inv (moving 6 1) ∧ ∃ t, step (moving 6 1) = .next t :=
  ⟨witness_inv_moving, _, rfl⟩

theorem witness_deadline_miss : Inv (busyAt 2) ∧ ∃ t, step (busyAt 2) = .next t ∧
    (busyAt 2).faulted = false ∧ t.faulted = true ∧ t.fault = Cause.deadlineMiss.code :=
  ⟨witness_inv_late, _, rfl, by decide, by decide, by decide⟩

theorem witness_gate_moves : Inv (holding 1 (syncing 13 0)) ∧ ∃ t, step (holding 1 (syncing 13 0)) = .next t ∧
    nextInput (holding 1 (syncing 13 0)) ≠ .reset ∧ t.videoEn ≠ (holding 1 (syncing 13 0)).videoEn :=
  ⟨witness_inv_holding, _, rfl, by decide, by decide⟩

theorem witness_dispatch : Inv (opened 12 2) ∧ ∃ t, step (opened 12 2) = .next t ∧
    (opened 12 2).rastBusy = false ∧ t.rastBusy = true :=
  ⟨witness_inv_before_dispatch, _, rfl, by decide, by decide⟩

theorem witness_reset_parameters : Params.default.wf = true ∧ tinyParams.wf = true ∧
    ({ Params.default with bufBytes := 4096, ovrMin := 255 } : Params).wf = true := by decide

theorem witness_memory_canonical : ∃ t, exec (.wr 0x1000 .word 0) { busyAt 13 with mem := [(2, 7), (65536, 1)] } = .next t ∧
    Memory.wf [(2, (7 : Byte)), (65536, 1)] :=
  ⟨_, rfl, by decide⟩

theorem witness_descriptor_written : ∃ t, exec .cfgTiming staged = .next t ∧ t.timing ≠ staged.timing :=
  ⟨_, rfl, by decide⟩

theorem witness_working_byte_written :
    ∃ t, exec (.wr 0x1001 .byte 9) { busyAt 13 with mem := [(1, 7)] } = .next t ∧
      (1 : Nat) < 65536 ∧ bufByte t false 1 ≠ bufByte { busyAt 13 with mem := [(1, 7)] } false 1 :=
  ⟨_, rfl, by decide, by decide⟩

theorem witness_roles_change : (∃ t, exec .sav (committed 2) = .next t ∧ t.work ≠ (committed 2).work) ∧
    ∃ t, exec .cfgTiming { staged with work := true } = .next t ∧ t.work ≠ true :=
  ⟨⟨_, rfl, by decide⟩, _, rfl, by decide⟩

theorem witness_vblank_counter : ∃ t, exec .tick (syncing 12 5) = .next t ∧ t.vblCount = 1 :=
  ⟨_, rfl, by decide⟩

theorem witness_staging : ∃ t, exec .tick (opened 12 2) = .next t := ⟨_, rfl⟩

theorem witness_parameters : ∃ t, exec .rastDone (busyAt 13) = .next t ∧ t.rastBusy = false := ⟨_, rfl, by decide⟩

theorem witness_sync_pins : fresh0.faulted = false ∧ fresh0.pinsDriven = false ∧
    (syncing 1 1).faulted = false ∧ (syncing 1 1).pinsDriven = true ∧
    hsyncPin (syncing 1 1) = .high ∧ hsyncPin (syncing 2 1) = .low ∧ vsyncPin (syncing 0 1) = .high ∧
    vsyncPin (syncing 0 2) = .low := by decide

end Sys2Proof.Tests
end

/-! PROOFS. The family of `00_scope.md`: a step runs the operation decoded (R8), and no operation changes a parameter or
reads `F_CLK`, `BUF_ALIGN`, `PIXEL_MAP` or the base address (R9). -/

namespace Sys2Proof

/-- `p` with `F_CLK`, `BUF_ALIGN`, `PIXEL_MAP` and the base address of `q`. -/
def Params.withUnreadOf (p q : Params) : Params :=
  { p with fClk := q.fClk, bufAlign := q.bufAlign, pixelMap := q.pixelMap, baseAddress := q.baseAddress }

end Sys2Proof

namespace Sys2Proof.Machine

/-! ### One step of the machine -/

theorem nextInput_of_cons {s : State} {x : Input} {rest : List Input} (h : s.sched = x :: rest) :
    nextInput s = x := by
  simp [nextInput, h]

theorem nextInput_of_nil {s : State} (h : s.sched = []) : nextInput s = .tick := by
  simp [nextInput, h]

theorem takeInput_of_cons {s : State} {x : Input} {rest : List Input} (h : s.sched = x :: rest) :
    takeInput s = { s with sched := rest, stepNo := s.stepNo + 1 } := by
  simp [takeInput, h]

theorem takeInput_of_nil {s : State} (h : s.sched = []) : takeInput s = { s with stepNo := s.stepNo + 1 } := by
  simp [takeInput, h]

/-- The step of an operation of the table (R8). -/
theorem step_of_decodeInput {s : State} {i : Instr} (h : decodeInput (nextInput s) = some i) :
    step s = exec i (takeInput s) := by
  simp [step, h]

/-- The step of the reset input (R350). -/
theorem step_of_reset {s : State} (h : nextInput s = .reset) : step s = .next (resetStep (takeInput s)) := by
  simp [step, h, decodeInput]

/-- Settles O6: what `step` does is read off the next input, which is the head of the list or, when there is none, a
`Tick`. -/
theorem stepRunsTheDecodedOperation : Obligations.StepRunsTheDecodedOperation := by
  refine ⟨fun s x rest i hs hi _ => ?decoded, fun s hs => ?idle, fun s rest hs => ?reset⟩
  case decoded =>
    rw [step_of_decodeInput ((nextInput_of_cons hs).symm ▸ hi), takeInput_of_cons hs]
  case idle =>
    have hi : decodeInput (nextInput s) = some .tick := by rw [nextInput_of_nil hs]; rfl
    rw [step_of_decodeInput hi, takeInput_of_nil hs]
  case reset =>
    refine ⟨_, step_of_reset (nextInput_of_cons hs), ?_⟩
    rw [takeInput_of_cons hs]
    exact ⟨rfl, rfl, rfl⟩

/-! ### The parameters that no operation reads -/

/-- The machine with the parameters `p` in place of its own. -/
def State.withParams (s : State) (p : Params) : State := { s with params := p }

/-- The machine with the four unread parameters of `q`. -/
def State.withUnreadOf (s : State) (q : Params) : State := s.withParams (s.params.withUnreadOf q)

/-- What is looked up in the state does not depend on the four unread parameters. -/
def SameWithUnread {α : Type} (look : State → α) : Prop := ∀ q s, look (s.withUnreadOf q) = look s

/-- From a state with other values of the four unread parameters, `f` answers the same state but for them, and keeps all
parameters. -/
def IgnoresUnread (f : State → State) : Prop :=
  ∀ q s, f (s.withUnreadOf q) = (f s).withParams (s.params.withUnreadOf q)

/-- A branch taken on one condition in both states. -/
theorem ite_withParams {c c' : Prop} {inst : Decidable c} {inst' : Decidable c'} {a b a' b' : State} {p : Params}
    (hc : c = c') (ha : a = a'.withParams p) (hb : b = b'.withParams p) :
    (if c then a else b) = (if c' then a' else b').withParams p := by
  subst hc ha hb
  by_cases h : c <;> simp [h]

namespace IgnoresUnread

/-- With the values the state has already, ignoring the four says that `f` keeps the parameters. -/
theorem params_eq {f : State → State} (hf : IgnoresUnread f) (s : State) : (f s).params = s.params := by
  have own : f s = (f s).withParams s.params := hf s.params s
  rw [own]
  rfl

theorem withUnreadOf {f : State → State} (hf : IgnoresUnread f) (q : Params) (s : State) :
    f (s.withUnreadOf q) = (f s).withUnreadOf q := by
  rw [hf q s, ← hf.params_eq s]
  rfl

theorem id : IgnoresUnread fun s => s := fun _ _ => rfl

theorem comp {f g : State → State} (hg : IgnoresUnread g) (hf : IgnoresUnread f) :
    IgnoresUnread fun s => g (f s) := by
  intro q s
  calc g (f (s.withUnreadOf q)) = g ((f s).withUnreadOf q) := by rw [hf.withUnreadOf]
    _ = (g (f s)).withParams ((f s).params.withUnreadOf q) := hg q (f s)
    _ = (g (f s)).withParams (s.params.withUnreadOf q) := by rw [hf.params_eq]

/-- A function chosen by something in the state. -/
theorem choose {α : Type} {look : State → α} {f : α → State → State} (hl : SameWithUnread look)
    (hf : ∀ a, IgnoresUnread (f a)) : IgnoresUnread fun s => f (look s) s :=
  fun q s => calc
    f (look (s.withUnreadOf q)) (s.withUnreadOf q) = f (look s) (s.withUnreadOf q) := by rw [hl q s]
    _ = (f (look s) s).withParams (s.params.withUnreadOf q) := hf (look s) q s

theorem ite {c : State → Prop} {inst : ∀ s, Decidable (c s)} {f g : State → State} (hc : SameWithUnread c)
    (hf : IgnoresUnread f) (hg : IgnoresUnread g) : IgnoresUnread fun s => if c s then f s else g s :=
  fun q s => ite_withParams (hc q s) (hf q s) (hg q s)

theorem thenDo {f : State → State} (hf : IgnoresUnread f) : IgnoresUnread fun s => Machine.thenDo s f :=
  .ite (fun _ _ => rfl) .id hf

end IgnoresUnread

/-! #### The shared operations -/

theorem raiseFault_ignoresUnread (c : Cause) {info : State → Word} (hi : SameWithUnread info) :
    IgnoresUnread fun s => raiseFault c (info s) s :=
  .choose hi fun _ _ _ => rfl

theorem progress_ignoresUnread : IgnoresUnread progress := by
  intro q s
  have hop : (s.withUnreadOf q).hop = s.hop := rfl
  unfold progress
  rw [hop]
  cases s.hop with
  | none => rfl
  | gateHold rem target => rfl
  | drain => exact ite_withParams rfl rfl rfl
  | waitVbl sample next => cases next <;> exact ite_withParams rfl rfl rfl

theorem gateCountdown_ignoresUnread : IgnoresUnread gateCountdown := by
  intro q s
  have hop : (s.withUnreadOf q).hop = s.hop := rfl
  unfold gateCountdown
  rw [hop]
  cases s.hop with
  | none => rfl
  | waitVbl sample next => rfl
  | drain => rfl
  | gateHold rem target => exact ite_withParams rfl rfl rfl

theorem issueCommand_ignoresUnread (w : Word) {legal : State → Bool} {perform : State → State}
    (hl : SameWithUnread legal) (hp : IgnoresUnread perform) :
    IgnoresUnread fun s => issueCommand w (legal s) perform s :=
  .ite (fun _ _ => rfl) .id
    (.ite (fun q s => congrArg (· = true) (hl q s)) (progress_ignoresUnread.thenDo.comp hp)
      (raiseFault_ignoresUnread _ fun _ _ => rfl))

/-! #### The events -/

theorem armDma_ignoresUnread : IgnoresUnread armDma :=
  .ite (fun _ _ => rfl) (fun _ _ => rfl) .id

theorem swapBuffers_ignoresUnread : IgnoresUnread swapBuffers :=
  .ite (fun _ _ => rfl) (fun _ _ => rfl) .id

theorem savEvent_ignoresUnread : IgnoresUnread savEvent :=
  .ite (fun _ _ => rfl) (raiseFault_ignoresUnread _ fun _ _ => rfl) <|
  .ite (fun _ _ => rfl) (raiseFault_ignoresUnread _ fun _ _ => rfl) <|
  .ite (fun _ _ => rfl) (raiseFault_ignoresUnread _ fun _ _ => rfl) <|
  armDma_ignoresUnread.comp swapBuffers_ignoresUnread

theorem rastEvent_ignoresUnread (r : Half) (k : BitVec 8) : IgnoresUnread (rastEvent r k) :=
  .ite (fun _ _ => rfl) (raiseFault_ignoresUnread _ fun _ _ => rfl) (fun _ _ => rfl)

theorem frameBoundary_ignoresUnread : IgnoresUnread frameBoundary :=
  .ite (fun _ _ => rfl) (.ite (fun _ _ => rfl) (raiseFault_ignoresUnread _ fun _ _ => rfl) (fun _ _ => rfl)) .id

theorem goLive_ignoresUnread (r : Nat) : IgnoresUnread (goLive r) :=
  .ite (fun _ _ => rfl) (fun _ _ => rfl) .id

theorem stepBand_ignoresUnread (r : Nat) : IgnoresUnread (stepBand r) :=
  .ite (fun _ _ => rfl) (fun _ _ => rfl) .id

theorem countRepeat_ignoresUnread : IgnoresUnread countRepeat :=
  .ite (fun _ _ => rfl) (fun _ _ => rfl) .id

theorem dispatchLine_ignoresUnread (r : Nat) : IgnoresUnread (dispatchLine r) :=
  .ite (fun _ _ => rfl)
    (.choose (look := fun s => bandSlotAt s s.bandPtr.toNat) (fun _ _ => rfl) (rastEvent_ignoresUnread _)) .id

/-- R185 for visible line `r`, once `live` is settled. -/
theorem rasterLine_ignoresUnread (r : Nat) :
    IgnoresUnread fun s => if s.live then dispatchLine r (countRepeat (stepBand r s)) else clearShapes s :=
  .ite (fun _ _ => rfl)
    ((dispatchLine_ignoresUnread r).comp (countRepeat_ignoresUnread.comp (stepBand_ignoresUnread r)))
    (fun _ _ => rfl)

theorem chooseRaster_ignoresUnread : IgnoresUnread chooseRaster :=
  .ite (fun _ _ => rfl)
    (.choose (look := fun s => s.timing.rline s.vline) (fun _ _ => rfl)
      fun r => (rasterLine_ignoresUnread r).comp (goLive_ignoresUnread r))
    .id

theorem eavEvent_ignoresUnread : IgnoresUnread eavEvent :=
  .ite (fun _ _ => rfl) (raiseFault_ignoresUnread _ fun _ _ => rfl)
    (chooseRaster_ignoresUnread.thenDo.comp (frameBoundary_ignoresUnread.comp fun _ _ => rfl))

theorem dmaBeat_ignoresUnread : IgnoresUnread dmaBeat := fun _ _ => rfl

theorem performEvent_ignoresUnread {event : State → State} (he : IgnoresUnread event) :
    IgnoresUnread (performEvent event) :=
  .ite (fun _ _ => rfl) .id he

/-! #### `TICK` -/

theorem tickEvents_ignoresUnread : IgnoresUnread tickEvents :=
  have beat : IgnoresUnread fun s => if beatDue s then dmaBeat s else s :=
    .ite (fun _ _ => rfl) dmaBeat_ignoresUnread .id
  have eav : IgnoresUnread fun s => if eavDue s then eavEvent s else s :=
    .ite (fun _ _ => rfl) eavEvent_ignoresUnread .id
  have sav : IgnoresUnread fun s => if savDue s then savEvent s else s :=
    .ite (fun _ _ => rfl) savEvent_ignoresUnread .id
  beat.thenDo.comp (eav.thenDo.comp sav)

theorem tickHost_ignoresUnread (held : Bool) : IgnoresUnread (tickHost held) :=
  have count : IgnoresUnread countTick := fun _ _ => rfl
  have gate : IgnoresUnread fun s => if held then gateCountdown s else s :=
    .ite (fun _ _ => rfl) gateCountdown_ignoresUnread .id
  count.thenDo.comp (progress_ignoresUnread.thenDo.comp gate.thenDo)

theorem tickStep_ignoresUnread : IgnoresUnread tickStep :=
  .ite (fun _ _ => rfl) .id
    (.choose (look := gateHeld) (fun _ _ => rfl) fun held =>
      (tickHost_ignoresUnread held).comp tickEvents_ignoresUnread)

/-! #### The commands -/

theorem newCommand_ignoresUnread : IgnoresUnread newCommand :=
  issueCommand_ignoresUnread _ (fun _ _ => rfl) fun _ _ => rfl

theorem cfgTimingCommand_ignoresUnread : IgnoresUnread cfgTimingCommand :=
  issueCommand_ignoresUnread _ (fun _ _ => rfl) (.ite (fun _ _ => rfl) (fun _ _ => rfl) fun _ _ => rfl)

theorem stopSyncCommand_ignoresUnread : IgnoresUnread stopSyncCommand :=
  issueCommand_ignoresUnread _ (fun _ _ => rfl) fun _ _ => rfl

theorem rastOpenCommand_ignoresUnread : IgnoresUnread rastOpenCommand :=
  issueCommand_ignoresUnread _ (fun _ _ => rfl) fun _ _ => rfl

theorem bandsOpenCommand_ignoresUnread (n : BitVec 8) : IgnoresUnread (bandsOpenCommand n) :=
  issueCommand_ignoresUnread _ (fun _ _ => rfl) (.ite (fun _ _ => rfl) (fun _ _ => rfl) fun _ _ => rfl)

theorem rastCloseCommand_ignoresUnread : IgnoresUnread rastCloseCommand :=
  issueCommand_ignoresUnread _ (fun _ _ => rfl) fun _ _ => rfl

theorem syncVblankCommand_ignoresUnread : IgnoresUnread syncVblankCommand :=
  issueCommand_ignoresUnread _ (fun _ _ => rfl) fun _ _ => rfl

theorem videoOnCommand_ignoresUnread : IgnoresUnread videoOnCommand :=
  issueCommand_ignoresUnread _ (fun _ _ => rfl) fun _ _ => rfl

theorem videoOffCommand_ignoresUnread : IgnoresUnread videoOffCommand :=
  issueCommand_ignoresUnread _ (fun _ _ => rfl) fun _ _ => rfl

theorem commitContext_ignoresUnread : IgnoresUnread commitContext := by
  intro q s
  have hw : (s.withUnreadOf q).work = s.work := rfl
  unfold commitContext setShape
  rw [hw]
  cases s.work <;> rfl

theorem rastDoneCommand_ignoresUnread : IgnoresUnread rastDoneCommand :=
  issueCommand_ignoresUnread _ (fun _ _ => rfl) <|
  .ite (fun _ _ => rfl) (raiseFault_ignoresUnread _ fun _ _ => rfl) <|
  .ite (fun _ _ => rfl) (raiseFault_ignoresUnread _ fun _ _ => rfl) commitContext_ignoresUnread

theorem rastFailCommand_ignoresUnread : IgnoresUnread rastFailCommand :=
  issueCommand_ignoresUnread _ (fun _ _ => rfl) (raiseFault_ignoresUnread _ fun _ _ => rfl)

/-! #### The bus -/

theorem performCommand_ignoresUnread (i : Instr) : IgnoresUnread (performCommand i) := by
  cases i with
  | new => exact newCommand_ignoresUnread
  | cfgTiming => exact cfgTimingCommand_ignoresUnread
  | stopSync => exact stopSyncCommand_ignoresUnread
  | rastOpen => exact rastOpenCommand_ignoresUnread
  | bandsOpen n => exact bandsOpenCommand_ignoresUnread n
  | rastClose => exact rastCloseCommand_ignoresUnread
  | syncVblank => exact syncVblankCommand_ignoresUnread
  | videoOn => exact videoOnCommand_ignoresUnread
  | videoOff => exact videoOffCommand_ignoresUnread
  | rastDone => exact rastDoneCommand_ignoresUnread
  | rastFail => exact rastFailCommand_ignoresUnread
  | _ => exact .id

theorem commandWrite_ignoresUnread (v : Word) : IgnoresUnread (commandWrite v) := by
  unfold commandWrite
  cases decodeCmd v with
  | ok i => exact performCommand_ignoresUnread i
  | error e => exact raiseFault_ignoresUnread _ fun _ _ => rfl

theorem regValue_sameWithUnread (r : Reg) : SameWithUnread (regValue r) := by
  intro q s
  cases r <;> rfl

theorem regWritable_sameWithUnread (r : Reg) : SameWithUnread (regWritable r) := by
  intro q s
  cases r <;> rfl

theorem regWrite_ignoresUnread (r : Reg) (v : Word) : IgnoresUnread (regWrite r v) := by
  intro q s
  cases r <;> rfl

/-- What an access reaches depends on `BUF_BYTES` alone. -/
theorem target_sameWithUnread (o : BitVec 13) (w : Width) : SameWithUnread fun s => target s.params o w :=
  fun _ _ => rfl

theorem readStep_ignoresUnread (o : BitVec 13) (w : Width) : IgnoresUnread (readStep o w) := by
  intro q s
  have ht : target (s.withUnreadOf q).params o w = target s.params o w := target_sameWithUnread o w q s
  unfold readStep
  rw [ht]
  cases target s.params o w with
  | reg r =>
    exact IgnoresUnread.choose (f := fun v s => { s with rdata := v }) (regValue_sameWithUnread r)
      (fun _ _ _ => rfl) q s
  | window k => rfl
  | illegal =>
    have latch : IgnoresUnread fun s => if s.faulted then s else raiseFault .illegalOp (accessInfo o) s :=
      .ite (fun _ _ => rfl) .id (raiseFault_ignoresUnread _ fun _ _ => rfl)
    exact IgnoresUnread.comp (g := fun s => { s with rdata := 0 }) (fun _ _ => rfl) latch q s

/-- A write to a register other than `CMD` (R91). -/
theorem registerWrite_ignoresUnread (o : BitVec 13) (r : Reg) (v : Word) : IgnoresUnread fun s =>
    if regWritable r s then progress (regWrite r v s) else raiseFault .illegalOp (accessInfo o) s :=
  .ite (fun q s => congrArg (· = true) (regWritable_sameWithUnread r q s))
    (progress_ignoresUnread.comp (regWrite_ignoresUnread r v)) (raiseFault_ignoresUnread _ fun _ _ => rfl)

/-- A write to the WORK window (R91). -/
theorem windowWrite_ignoresUnread (o : BitVec 13) (k n : Nat) (v : Word) : IgnoresUnread fun s =>
    if s.rastBusy then progress (storeBuf s.work k n v s) else raiseFault .illegalOp (accessInfo o) s :=
  .ite (fun _ _ => rfl) (progress_ignoresUnread.comp fun _ _ => rfl)
    (raiseFault_ignoresUnread _ fun _ _ => rfl)

theorem writeStep_ignoresUnread (o : BitVec 13) (w : Width) (v : Word) : IgnoresUnread (writeStep o w v) := by
  refine .ite (fun _ _ => rfl) .id fun q s => ?_
  have ht : target (s.withUnreadOf q).params o w = target s.params o w := target_sameWithUnread o w q s
  rw [ht]
  cases target s.params o w with
  | illegal => rfl
  | window k => exact windowWrite_ignoresUnread o k w.bytes v q s
  | reg r =>
    cases r with
    | cmd => exact commandWrite_ignoresUnread v q s
    | _ => exact registerWrite_ignoresUnread o _ v q s

/-! #### Every operation -/

/-- Every operation answers a next state, by a function that ignores the four unread parameters. -/
theorem exec_ignoresUnread (i : Instr) : ∃ f, IgnoresUnread f ∧ ∀ s, exec i s = .next (f s) := by
  cases i with
  | new => exact ⟨_, newCommand_ignoresUnread, fun _ => rfl⟩
  | cfgTiming => exact ⟨_, cfgTimingCommand_ignoresUnread, fun _ => rfl⟩
  | stopSync => exact ⟨_, stopSyncCommand_ignoresUnread, fun _ => rfl⟩
  | rastOpen => exact ⟨_, rastOpenCommand_ignoresUnread, fun _ => rfl⟩
  | bandsOpen n => exact ⟨_, bandsOpenCommand_ignoresUnread n, fun _ => rfl⟩
  | rastClose => exact ⟨_, rastCloseCommand_ignoresUnread, fun _ => rfl⟩
  | syncVblank => exact ⟨_, syncVblankCommand_ignoresUnread, fun _ => rfl⟩
  | videoOn => exact ⟨_, videoOnCommand_ignoresUnread, fun _ => rfl⟩
  | videoOff => exact ⟨_, videoOffCommand_ignoresUnread, fun _ => rfl⟩
  | rastDone => exact ⟨_, rastDoneCommand_ignoresUnread, fun _ => rfl⟩
  | rastFail => exact ⟨_, rastFailCommand_ignoresUnread, fun _ => rfl⟩
  | tick => exact ⟨_, tickStep_ignoresUnread, fun _ => rfl⟩
  | sav => exact ⟨_, performEvent_ignoresUnread savEvent_ignoresUnread, fun _ => rfl⟩
  | eav => exact ⟨_, performEvent_ignoresUnread eavEvent_ignoresUnread, fun _ => rfl⟩
  | rast r k => exact ⟨_, performEvent_ignoresUnread (rastEvent_ignoresUnread r k), fun _ => rfl⟩
  | dmabeat => exact ⟨_, performEvent_ignoresUnread dmaBeat_ignoresUnread, fun _ => rfl⟩
  | rd o w => exact ⟨_, readStep_ignoresUnread o w, fun _ => rfl⟩
  | wr o w v => exact ⟨_, writeStep_ignoresUnread o w v, fun _ => rfl⟩

/-- Settles O60: the two conjuncts are the two readings of `IgnoresUnread`, at the state's own values and at others. -/
theorem parametersStayAndFourReachNothing : Obligations.ParametersStayAndFourReachNothing := by
  intro i s t fClk bufAlign baseAddress pixelMap ht other
  obtain ⟨f, hf, hexec⟩ := exec_ignoresUnread i
  obtain rfl : f s = t := by simpa [hexec] using ht
  refine ⟨hf.params_eq s, ?_⟩
  rw [hexec]
  exact congrArg Host.Outcome.next (hf other s)

end Sys2Proof.Machine

/-! PROOFS. The family of `20_memory.md`: what an access reaches and what it does (R82 to R92, R358), the roles of the
buffers (R83, R100), and the staging registers (R99). -/

namespace Sys2Proof.Machine

open Sys2Proof.Safety

/-! ### What an access reaches -/

/-- The single registers fill two runs of word offsets (R52). -/
theorem regMap_lookup_eq_none_iff {off : Nat} (ha : off % 4 = 0) :
    regMap.lookup off = none ↔ ¬ (off ≤ 0x040 ∨ (0x060 ≤ off ∧ off ≤ 0x078)) := by
  simp only [regMap, List.lookup_eq_none_iff, List.forall_mem_cons, bne_iff_ne, List.not_mem_nil, false_implies,
    implies_true, and_true]
  constructor
  · rintro hne (hlow | hstaging) <;> omega
  · omega

theorem regAt_eq_none_iff {off : Nat} (ha : off % 4 = 0) : regAt off = none ↔ ¬ mapped off := by
  unfold regAt mapped
  split
  case isTrue hSlot => simp only [reduceCtorEq, false_iff, Classical.not_not]; omega
  case isFalse hNoSlot =>
    split
    case isTrue hBand => split <;> simp only [reduceCtorEq, false_iff, Classical.not_not] <;> omega
    case isFalse hNoBand => rw [regMap_lookup_eq_none_iff ha]; omega

/-- An access inside the window at a multiple of its width (R81, R86). -/
theorem target_of_window {p : Params} {o : BitVec 13} {w : Width} (hw : 0x1000 ≤ o.toNat)
    (h : accessAllowed p o w) : target p o w = .window (o.toNat - 0x1000) := by
  have hin : (o.toNat - 0x1000) % w.bytes = 0 ∧ o.toNat - 0x1000 + w.bytes ≤ p.bufBytes := by
    rcases h with ⟨hlow, _⟩ | ⟨_, hin⟩
    · omega
    · exact hin
  simp only [target, if_pos hw, if_pos hin]

/-- A word access to a register (R52). -/
theorem target_of_regAt (p : Params) {o : BitVec 13} {r : Reg} (hlow : o.toNat < 0x1000) (ha : o.toNat % 4 = 0)
    (hr : regAt o.toNat = some r) : target p o .word = .reg r := by
  simp [target, Nat.not_le.2 hlow, ha, hr]

/-- The illegal accesses are those that R81 and R86 do not allow. -/
theorem target_eq_illegal_iff (p : Params) (o : BitVec 13) (w : Width) :
    target p o w = .illegal ↔ ¬ accessAllowed p o w := by
  constructor
  · rintro ht (⟨hlow, rfl, ha, hm⟩ | ⟨hw, hin⟩)
    · obtain ⟨r, hr⟩ := Option.ne_none_iff_exists'.1 (mt (regAt_eq_none_iff ha).1 (Classical.not_not.2 hm))
      rw [target_of_regAt p (by omega) ha hr] at ht
      cases ht
    · rw [target_of_window hw (.inr ⟨hw, hin⟩)] at ht
      cases ht
  · intro hno
    unfold target
    dsimp only
    split
    case isTrue hw => exact if_neg fun hin => hno (.inr ⟨hw, hin⟩)
    case isFalse hlow =>
      split
      case isTrue ha =>
        have hm : ¬ mapped o.toNat := by
          intro hm
          have hlow : o.toNat < 0x180 := by unfold mapped at hm; omega
          exact hno (.inl ⟨hlow, ha.1, ha.2, hm⟩)
        rw [(regAt_eq_none_iff ha.2).2 hm]
      case isFalse => rfl

/-! ### What an access does -/

theorem readStep_illegal_running {o : BitVec 13} {w : Width} {s : State} (hf : s.faulted = false)
    (ht : target s.params o w = .illegal) :
    readStep o w s = { raiseFault .illegalOp (accessInfo o) s with rdata := 0 } := by
  simp [readStep, ht, hf]

theorem readStep_illegal_faulted {o : BitVec 13} {w : Width} {s : State} (hf : s.faulted = true)
    (ht : target s.params o w = .illegal) : readStep o w s = { s with rdata := 0 } := by
  simp [readStep, ht, hf]

theorem readStep_window {o : BitVec 13} {w : Width} {s : State} {k : Nat} (ht : target s.params o w = .window k) :
    readStep o w s = { s with rdata := bufValue s s.work k w.bytes } := by
  simp only [readStep, ht]

theorem writeStep_faulted {s : State} (hf : s.faulted = true) (o : BitVec 13) (w : Width) (v : Word) :
    writeStep o w v s = s := by
  simp [writeStep, hf]

section

variable {o : BitVec 13} {w : Width} {s : State} (hf : s.faulted = false)

include hf

theorem writeStep_illegal (ht : target s.params o w = .illegal) (v : Word) :
    writeStep o w v s = raiseFault .illegalOp (accessInfo o) s := by
  simp [writeStep, hf, ht]

/-- A write to a register other than `CMD` (R91). -/
theorem writeStep_reg {r : Reg} (ht : target s.params o w = .reg r) (hr : r ≠ .cmd) (v : Word) :
    writeStep o w v s =
      if regWritable r s then progress (regWrite r v s) else raiseFault .illegalOp (accessInfo o) s := by
  unfold writeStep
  rw [hf, ht]
  cases r with
  | cmd => exact absurd rfl hr
  | _ => rfl

theorem writeStep_reg_writable {r : Reg} (ht : target s.params o w = .reg r) (hw : regWritable r s = true) (v : Word) :
    writeStep o w v s = progress (regWrite r v s) := by
  have hr : r ≠ .cmd := by rintro rfl; cases hw
  rw [writeStep_reg hf ht hr, if_pos hw]

theorem writeStep_reg_closed {r : Reg} (ht : target s.params o w = .reg r) (hr : r ≠ .cmd)
    (hw : regWritable r s = false) (v : Word) :
    writeStep o w v s = raiseFault .illegalOp (accessInfo o) s := by
  rw [writeStep_reg hf ht hr, hw]
  rfl

theorem writeStep_window_busy {k : Nat} (ht : target s.params o w = .window k) (hb : s.rastBusy = true) (v : Word) :
    writeStep o w v s = progress (storeBuf s.work k w.bytes v s) := by
  simp [writeStep, hf, ht, hb]

theorem writeStep_window_idle {k : Nat} (ht : target s.params o w = .window k) (hb : s.rastBusy = false) (v : Word) :
    writeStep o w v s = raiseFault .illegalOp (accessInfo o) s := by
  simp [writeStep, hf, ht, hb]

end

/-! ### Illegal accesses -/

/-- No register of the map marked RO in R52 is `CMD` or may ever be written. -/
theorem regMap_readOnly : ∀ x ∈ regMap, readOnly x.1 → x.2 ≠ .cmd ∧ ∀ s, regWritable x.2 s = false := by
  simp [regMap, readOnly, regWritable]

theorem regAt_readOnly {off : Nat} (ha : off % 4 = 0) (hro : readOnly off) :
    ∃ r, regAt off = some r ∧ r ≠ .cmd ∧ ∀ s, regWritable r s = false := by
  have hlow : 0x004 ≤ off ∧ off ≤ 0x040 := by unfold readOnly at hro; omega
  have hmap : regAt off = regMap.lookup off := by
    unfold regAt
    rw [if_neg (by omega), if_neg (by omega)]
  have hm : mapped off := .inl hlow.2
  obtain ⟨r, hr⟩ := Option.ne_none_iff_exists'.1 (mt (regAt_eq_none_iff ha).1 (Classical.not_not.2 hm))
  obtain ⟨before, after, hsplit, _⟩ := List.lookup_eq_some_iff.1 (hmap ▸ hr)
  exact ⟨r, hr, regMap_readOnly (off, r) (by simp [hsplit]) hro⟩

/-- Settles O44: the accesses not allowed are those whose target is `illegal`, and a read-only register is never
writable. -/
theorem illegalAccessFaults : Obligations.IllegalAccessFaults := by
  intro s o w
  refine ⟨fun hf hno => ?running, fun hf hno => ?faulted, fun hf hw ha hro v => ?readOnly⟩
  case running =>
    have ht := (target_eq_illegal_iff s.params o w).2 hno
    exact ⟨congrArg _ (readStep_illegal_running hf ht), fun v => congrArg _ (writeStep_illegal hf ht v)⟩
  case faulted =>
    have ht := (target_eq_illegal_iff s.params o w).2 hno
    exact ⟨congrArg _ (readStep_illegal_faulted hf ht), fun v => congrArg _ (writeStep_faulted hf o w v)⟩
  case readOnly =>
    subst hw
    obtain ⟨r, hr, hcmd, hclosed⟩ := regAt_readOnly ha hro
    have hlow : o.toNat < 0x1000 := by unfold readOnly at hro; omega
    exact congrArg _ (writeStep_reg_closed hf (target_of_regAt _ hlow ha hr) hcmd (hclosed s) v)

/-! ### Register writes -/

theorem target_slotFn (p : Params) (i : Fin 16) :
    target p (0x080 + 4 * BitVec.ofNat 13 i) .word = .reg (.slotFn i) := by
  refine target_of_regAt p ?_ ?_ ?_ <;> revert i <;> decide

theorem target_bandRange (p : Params) (i : Fin 16) :
    target p (0x100 + 8 * BitVec.ofNat 13 i) .word = .reg (.bandRange i) := by
  refine target_of_regAt p ?_ ?_ ?_ <;> revert i <;> decide

theorem target_bandSlot (p : Params) (i : Fin 16) :
    target p (0x104 + 8 * BitVec.ofNat 13 i) .word = .reg (.bandSlot i) := by
  refine target_of_regAt p ?_ ?_ ?_ <;> revert i <;> decide

/-- Settles O45: each offset is that of its register, and the register is writable exactly in its window. -/
theorem registerWritesAndTheirWindows : Obligations.RegisterWritesAndTheirWindows := by
  intro s v hf writes faults
  have writes_of {o : BitVec 13} {r : Reg} (ht : target s.params o .word = .reg r) (hw : regWritable r s = true) :
      writes o (regWrite r v s) := congrArg _ (writeStep_reg_writable hf ht hw v)
  have faults_of {o : BitVec 13} {r : Reg} (ht : target s.params o .word = .reg r) (hr : r ≠ .cmd)
      (hw : regWritable r s = false) : faults o := congrArg _ (writeStep_reg_closed hf ht hr hw v)
  refine ⟨?staging, fun hb => ?context, fun hb => ?noContext, fun hd i => ?tables, fun hd i => ?published⟩
  case staging =>
    exact ⟨writes_of (r := .tdCtrl) rfl rfl, writes_of (r := .tdH0) rfl rfl, writes_of (r := .tdH1) rfl rfl,
      writes_of (r := .tdH2) rfl rfl, writes_of (r := .tdV0) rfl rfl, writes_of (r := .tdV1) rfl rfl,
      writes_of (r := .tdV2) rfl rfl⟩
  case context => exact ⟨writes_of (r := .ctxRange) rfl hb, writes_of (r := .ctxMode) rfl hb⟩
  case noContext =>
    exact ⟨faults_of (r := .ctxRange) rfl (by simp) hb, faults_of (r := .ctxMode) rfl (by simp) hb⟩
  case tables =>
    have hopen : (s.dstate != .rasterLoaded) = true := bne_iff_ne.2 hd
    exact ⟨writes_of (target_slotFn _ i) hopen, writes_of (target_bandRange _ i) hopen,
      writes_of (target_bandSlot _ i) hopen⟩
  case published =>
    have hclosed : (s.dstate != .rasterLoaded) = false := by simp [hd]
    exact ⟨faults_of (target_slotFn _ i) (by simp) hclosed, faults_of (target_bandRange _ i) (by simp) hclosed,
      faults_of (target_bandSlot _ i) (by simp) hclosed⟩

/-! ### The WORK window -/

/-- Settles O46: the bytes stored read back by the laws of `storeBuf`, and no other address is written. -/
theorem windowWriteStoresItsBytes : Obligations.WindowWriteStoresItsBytes := by
  intro s o w v hf hw hallowed
  have ht := target_of_window hw hallowed
  refine ⟨fun hb => ?busy, fun hb => congrArg _ (writeStep_window_idle hf ht hb v)⟩
  refine ⟨s.mem.writeBytes (bufAddr s.work (o.toNat - 0x1000)) (bytesOf w.bytes v),
    congrArg _ (writeStep_window_busy hf ht hb v), fun i hi => ?stored, fun a ha => ?other⟩
  case stored => exact bufByte_storeBuf_in s.work (o.toNat - 0x1000) w.bytes v s hi
  case other =>
    apply Memory.read?_writeBytes_out
    rw [bytesOf_length]
    omega

/-- The value of a nonempty list of bytes is its first byte with the value of the others above it (R85). -/
theorem valueOfBytes_cons (b : Byte) (bs : List Byte) :
    valueOfBytes (b :: bs) = (valueOfBytes bs <<< 8) ||| b.setWidth 32 := rfl

theorem valueOfBytes_cons_getLsbD (b : Byte) (bs : List Byte) {k : Nat} (hk : k < 32) :
    (valueOfBytes (b :: bs)).getLsbD k = if k < 8 then b.getLsbD k else (valueOfBytes bs).getLsbD (k - 8) := by
  rw [valueOfBytes_cons, BitVec.getLsbD_or, BitVec.getLsbD_shiftLeft, BitVec.getLsbD_setWidth]
  by_cases hlow : k < 8
  · simp [hk, hlow]
  · have hb : b.getLsbD k = false := BitVec.getLsbD_of_ge b k (by omega)
    simp only [hk, hlow, hb, decide_true, decide_false, Bool.not_false, Bool.true_and, Bool.and_false, Bool.or_false,
      if_false]

/-- The value of bytes has nothing above them. -/
theorem valueOfBytes_toNat_lt (bs : List Byte) : (valueOfBytes bs).toNat < 2 ^ (8 * bs.length) := by
  induction bs with
  | nil => decide
  | cons b bs ih =>
    rw [valueOfBytes_cons, BitVec.toNat_or, List.length_cons]
    refine Nat.or_lt_two_pow ?above ?first
    case above =>
      calc (valueOfBytes bs <<< 8).toNat ≤ (valueOfBytes bs).toNat * 2 ^ 8 := by
            rw [BitVec.toNat_shiftLeft, Nat.shiftLeft_eq]; exact Nat.mod_le _ _
        _ < 2 ^ (8 * bs.length) * 2 ^ 8 := by omega
        _ = 2 ^ (8 * (bs.length + 1)) := by rw [← Nat.pow_add, Nat.mul_succ]
    case first =>
      calc (b.setWidth 32).toNat < 2 ^ 8 := by simp; omega
        _ ≤ 2 ^ (8 * (bs.length + 1)) := Nat.pow_le_pow_right (by decide) (by omega)

/-- Byte `i` of a word is byte `i` of the list it was made of, as far as the word has room for the list. -/
theorem valueOfBytes_extractLsb' (bs : List Byte) {i : Nat} (hi : i < bs.length) (hlen : bs.length ≤ 4) :
    (valueOfBytes bs).extractLsb' (8 * i) 8 = bs[i] := by
  induction bs generalizing i with
  | nil => simp at hi
  | cons b bs ih =>
    rw [List.length_cons] at hi hlen
    cases i with
    | zero =>
      ext j hj
      simp [valueOfBytes_cons_getLsbD b bs (k := j) (by omega), hj]
    | succ i =>
      rw [List.getElem_cons_succ, ← ih (by omega) (by omega)]
      ext j hj
      have hhigh : ¬ 8 * (i + 1) + j < 8 := by omega
      have hdown : 8 * (i + 1) + j - 8 = 8 * i + j := by omega
      simp [valueOfBytes_cons_getLsbD b bs (k := 8 * (i + 1) + j) (by omega), hhigh, hdown]

theorem width_bytes_le_four (w : Width) : w.bytes ≤ 4 := by cases w <;> decide

/-- Settles O47: the value read is that of the bytes of the buffer, and bytes can be taken out of it again. -/
theorem windowReadReturnsItsBytes : Obligations.WindowReadReturnsItsBytes := by
  intro s o w hw hallowed
  have ht := target_of_window hw hallowed
  refine ⟨_, congrArg _ (readStep_window ht), fun i hi => ?byte, ?size⟩
  case byte =>
    have hw4 := width_bytes_le_four w
    rw [bufValue, valueOfBytes_extractLsb' _ (by simpa using hi) (by simpa using hw4)]
    simp
  case size =>
    have hlt := valueOfBytes_toNat_lt ((List.range w.bytes).map fun i => bufByte s s.work (o.toNat - 0x1000 + i))
    simpa [bufValue] using hlt

/-! ### The roles of the buffers -/

/-- `f` leaves everything that a buffer byte is read from as it is. -/
def KeepsBuffers (f : State → State) : Prop := ∀ s, (f s).mem = s.mem ∧ (f s).resets = s.resets

namespace KeepsBuffers

theorem id : KeepsBuffers fun s => s := fun _ => ⟨rfl, rfl⟩

theorem ite {c : State → Prop} {inst : ∀ s, Decidable (c s)} {f g : State → State} (hf : KeepsBuffers f)
    (hg : KeepsBuffers g) : KeepsBuffers fun s => if c s then f s else g s := by
  intro s
  dsimp only
  split
  · exact hf s
  · exact hg s

theorem comp {f g : State → State} (hg : KeepsBuffers g) (hf : KeepsBuffers f) : KeepsBuffers fun s => g (f s) :=
  fun s => ⟨(hg (f s)).1.trans (hf s).1, (hg (f s)).2.trans (hf s).2⟩

theorem thenDo {f : State → State} (hf : KeepsBuffers f) : KeepsBuffers fun s => Machine.thenDo s f := .ite .id hf
end KeepsBuffers

theorem raiseFault_keepsBuffers (c : Cause) (info : State → Word) : KeepsBuffers fun s => raiseFault c (info s) s :=
  fun _ => ⟨rfl, rfl⟩

theorem progress_keepsBuffers : KeepsBuffers progress := fun s => ⟨progress_mem s, progress_resets s⟩

theorem issueCommand_keepsBuffers (w : Word) (legal : State → Bool) {perform : State → State}
    (hp : KeepsBuffers perform) : KeepsBuffers fun s => issueCommand w (legal s) perform s :=
  .ite .id (.ite (progress_keepsBuffers.thenDo.comp hp) (raiseFault_keepsBuffers _ _))

theorem performEvent_keepsBuffers {event : State → State} (he : KeepsBuffers event) :
    KeepsBuffers (performEvent event) := .ite .id he

/-- No command writes a buffer (R100). -/
theorem performCommand_keepsBuffers (i : Instr) : KeepsBuffers (performCommand i) := by
  cases i with
  | new => exact issueCommand_keepsBuffers _ _ fun _ => ⟨rfl, rfl⟩
  | cfgTiming => exact issueCommand_keepsBuffers _ _ (.ite (fun _ => ⟨rfl, rfl⟩) fun _ => ⟨rfl, rfl⟩)
  | stopSync => exact issueCommand_keepsBuffers _ _ fun _ => ⟨rfl, rfl⟩
  | rastOpen => exact issueCommand_keepsBuffers _ _ fun _ => ⟨rfl, rfl⟩
  | bandsOpen n => exact issueCommand_keepsBuffers _ _ (.ite (fun _ => ⟨rfl, rfl⟩) fun _ => ⟨rfl, rfl⟩)
  | rastClose => exact issueCommand_keepsBuffers _ _ fun _ => ⟨rfl, rfl⟩
  | syncVblank => exact issueCommand_keepsBuffers _ _ fun _ => ⟨rfl, rfl⟩
  | videoOn => exact issueCommand_keepsBuffers _ _ fun _ => ⟨rfl, rfl⟩
  | videoOff => exact issueCommand_keepsBuffers _ _ fun _ => ⟨rfl, rfl⟩
  | rastDone =>
    exact issueCommand_keepsBuffers _ _ <| .ite (raiseFault_keepsBuffers _ _) <|
      .ite (raiseFault_keepsBuffers _ _) fun s => ⟨commitContext_mem s, commitContext_resets s⟩
  | rastFail => exact issueCommand_keepsBuffers _ _ (raiseFault_keepsBuffers _ _)
  | _ => exact .id

theorem commandWrite_keepsBuffers (v : Word) : KeepsBuffers (commandWrite v) := by
  intro s
  cases h : decodeCmd v with
  | ok i => rw [commandWrite_ok h]; exact performCommand_keepsBuffers i s
  | error e => rw [commandWrite_error h]; exact ⟨rfl, rfl⟩

theorem readStep_keepsBuffers (o : BitVec 13) (w : Width) : KeepsBuffers (readStep o w) := by
  intro s
  obtain ⟨v, h⟩ | ⟨_, _, h⟩ := readStep_cases o w s <;> rw [h] <;> exact ⟨rfl, rfl⟩

theorem savEvent_keepsBuffers : KeepsBuffers savEvent := fun s => ⟨savEvent_mem s, savEvent_resets s⟩

theorem eavEvent_keepsBuffers : KeepsBuffers eavEvent := fun s => ⟨eavEvent_mem s, eavEvent_resets s⟩

theorem rastEvent_keepsBuffers (r : Half) (k : BitVec 8) : KeepsBuffers (rastEvent r k) :=
  fun s => ⟨rastEvent_mem r k s, rastEvent_resets r k s⟩

theorem dmaBeat_keepsBuffers : KeepsBuffers dmaBeat := fun _ => ⟨rfl, rfl⟩

theorem tickHost_keepsBuffers (held : Bool) : KeepsBuffers (tickHost held) :=
  have count : KeepsBuffers countTick := fun _ => ⟨rfl, rfl⟩
  have gate : KeepsBuffers fun s => if held then gateCountdown s else s :=
    .ite (fun s => ⟨gateCountdown_mem s, gateCountdown_resets s⟩) .id
  count.thenDo.comp (progress_keepsBuffers.thenDo.comp gate.thenDo)

theorem tickEvents_keepsBuffers : KeepsBuffers tickEvents := fun s =>
  ⟨tickEvents_frame State.mem savEvent_mem eavEvent_mem dmaBeat_mem s,
    tickEvents_frame State.resets savEvent_resets eavEvent_resets dmaBeat_resets s⟩

/-- The sequencer only reads the buffers (R83). -/
theorem tickStep_keepsBuffers : KeepsBuffers tickStep :=
  .ite .id fun s => ((tickHost_keepsBuffers (gateHeld s)).comp tickEvents_keepsBuffers) s

/-- What has a command word is performed as that command (R129). -/
theorem exec_eq_performCommand {i : Instr} (s : State) (hc : (encodeCmd i).isSome = true) :
    exec i s = .next (performCommand i s) := by
  cases i with
  | tick | sav | eav | rast | dmabeat | rd | wr => cases hc
  | _ => rfl

/-- Everything a bus write can do to the buffers (R91). -/
theorem writeStep_keepsBuffers_or_stores (o : BitVec 13) (w : Width) (v : Word) (s : State) :
    ((writeStep o w v s).mem = s.mem ∧ (writeStep o w v s).resets = s.resets) ∨
    (0x1000 ≤ o.toNat ∧ s.rastBusy = true ∧
      writeStep o w v s = progress (storeBuf s.work (o.toNat - 0x1000) w.bytes v s)) := by
  rcases writeStep_cases o w v s with ⟨_, h⟩ | ⟨_, h⟩ | ⟨_, _, h⟩ | ⟨r, _, _, _, h⟩ | ⟨k, _, hk, hb, h⟩
  · rw [h]; exact .inl ⟨rfl, rfl⟩
  · rw [h]; exact .inl ⟨rfl, rfl⟩
  · rw [h]; exact .inl (commandWrite_keepsBuffers v s)
  · rw [h]; exact .inl ⟨by simp, by simp⟩
  · obtain ⟨hat, hw, _, _⟩ := target_window hk
    exact .inr ⟨hw, hb, hat ▸ h⟩

/-- Every operation keeps the buffers but a window write during a rasterization (R100). -/
theorem exec_keepsBuffers_or_stores {i : Instr} {s t : State} (h : exec i s = .next t) :
    (t.mem = s.mem ∧ t.resets = s.resets) ∨
    ∃ o w v, i = .wr o w v ∧ 0x1000 ≤ o.toNat ∧ s.rastBusy = true ∧
      t = progress (storeBuf s.work (o.toNat - 0x1000) w.bytes v s) := by
  cases i with
  | wr o w v =>
    cases h
    exact (writeStep_keepsBuffers_or_stores o w v s).imp_right fun hst => ⟨o, w, v, rfl, hst⟩
  | rd o w => cases h; exact .inl (readStep_keepsBuffers o w s)
  | tick => cases h; exact .inl (tickStep_keepsBuffers s)
  | sav => cases h; exact .inl (performEvent_keepsBuffers savEvent_keepsBuffers s)
  | eav => cases h; exact .inl (performEvent_keepsBuffers eavEvent_keepsBuffers s)
  | rast r k => cases h; exact .inl (performEvent_keepsBuffers (rastEvent_keepsBuffers r k) s)
  | dmabeat => cases h; exact .inl (performEvent_keepsBuffers dmaBeat_keepsBuffers s)
  | _ =>
    rw [exec_eq_performCommand s rfl] at h
    cases h
    exact .inl (performCommand_keepsBuffers _ s)

/-- Settles O52: the one operation that stores stores in the working buffer, at the bytes it addresses. -/
theorem buffersKeepTheirRoles : Obligations.BuffersKeepTheirRoles := by
  intro i s t h
  rcases exec_keepsBuffers_or_stores h with ⟨hm, hr⟩ | ⟨o, w, v, rfl, hw, hb, rfl⟩
  · exact ⟨fun k _ => bufByte_congr hm hr _ k, fun k _ hne => absurd (bufByte_congr hm hr _ k) hne⟩
  · have hfit : o.toNat - 0x1000 + w.bytes ≤ 65536 := by
      have hw4 := width_bytes_le_four w
      omega
    have untouched {b : Bool} {k : Nat} (hk : k < 65536)
        (hout : ¬ (b = s.work ∧ o.toNat - 0x1000 ≤ k ∧ k < o.toNat - 0x1000 + w.bytes)) :
        bufByte (progress (storeBuf s.work (o.toNat - 0x1000) w.bytes v s)) b k = bufByte s b k :=
      (bufByte_congr (progress_mem _) (progress_resets _) b k).trans (bufByte_storeBuf_out _ _ _ v s hfit hk hout)
    refine ⟨fun k hk => untouched hk fun hin => ?scanout, fun k hk hne => ⟨hb, o, w, v, rfl, hw, ?working⟩⟩
    case scanout => cases hwork : s.work <;> simp [hwork] at hin
    case working => exact Classical.byContradiction fun hout => hne (untouched hk fun hin => hout hin.2)

/-! ### The staging registers -/

/-- `s` with the seven `TD_*` registers of `q`. -/
def stageFrom (q s : State) : State :=
  { s with tdCtrl := q.tdCtrl, tdH0 := q.tdH0, tdH1 := q.tdH1, tdH2 := q.tdH2
           tdV0 := q.tdV0, tdV1 := q.tdV1, tdV2 := q.tdV2 }

/-- `f` neither reads nor writes the `TD_*` registers: it does the same whatever is put there first. -/
def IgnoresStaging (f : State → State) : Prop := ∀ q s, f (stageFrom q s) = stageFrom q (f s)

/-- A branch taken on one condition in both states. -/
theorem ite_stageFrom {c c' : Prop} {inst : Decidable c} {inst' : Decidable c'} {q a b a' b' : State}
    (hc : c ↔ c') (ha : a = stageFrom q a') (hb : b = stageFrom q b') :
    (if c then a else b) = stageFrom q (if c' then a' else b') := by
  by_cases h : c'
  · rw [if_pos h, if_pos (hc.2 h), ha]
  · rw [if_neg h, if_neg (mt hc.1 h), hb]

namespace IgnoresStaging

theorem id : IgnoresStaging fun s => s := fun _ _ => rfl

theorem comp {f g : State → State} (hg : IgnoresStaging g) (hf : IgnoresStaging f) :
    IgnoresStaging fun s => g (f s) :=
  fun q s => (congrArg g (hf q s)).trans (hg q (f s))

/-- A function chosen by something in the state other than the `TD_*` registers. -/
theorem choose {α : Type} {look : State → α} {f : α → State → State} (hl : ∀ q s, look (stageFrom q s) = look s)
    (hf : ∀ a, IgnoresStaging (f a)) : IgnoresStaging fun s => f (look s) s :=
  fun q s => (congrArg (fun a => f a (stageFrom q s)) (hl q s)).trans (hf (look s) q s)

theorem ite {c : State → Prop} {inst : ∀ s, Decidable (c s)} {f g : State → State}
    (hc : ∀ q s, c (stageFrom q s) ↔ c s) (hf : IgnoresStaging f) (hg : IgnoresStaging g) :
    IgnoresStaging fun s => if c s then f s else g s :=
  fun q s => ite_stageFrom (hc q s) (hf q s) (hg q s)

theorem thenDo {f : State → State} (hf : IgnoresStaging f) : IgnoresStaging fun s => Machine.thenDo s f :=
  .ite (fun _ _ => .rfl) .id hf

end IgnoresStaging

theorem raiseFault_ignoresStaging (c : Cause) {info : State → Word} (hi : ∀ q s, info (stageFrom q s) = info s) :
    IgnoresStaging fun s => raiseFault c (info s) s :=
  .choose hi fun _ _ _ => rfl

/-! #### The events -/

theorem savEvent_ignoresStaging : IgnoresStaging savEvent :=
  have swap : IgnoresStaging swapBuffers := .ite (fun _ _ => .rfl) (fun _ _ => rfl) .id
  have arm : IgnoresStaging armDma := .ite (fun _ _ => .rfl) (fun _ _ => rfl) .id
  .ite (fun _ _ => .rfl) (raiseFault_ignoresStaging _ fun _ _ => rfl) <|
  .ite (fun _ _ => .rfl) (raiseFault_ignoresStaging _ fun _ _ => rfl) <|
  .ite (fun _ _ => .rfl) (raiseFault_ignoresStaging _ fun _ _ => rfl) <|
  arm.comp swap

theorem rastEvent_ignoresStaging (r : Half) (k : BitVec 8) : IgnoresStaging (rastEvent r k) :=
  .ite (fun _ _ => .rfl) (raiseFault_ignoresStaging _ fun _ _ => rfl) fun _ _ => rfl

theorem frameBoundary_ignoresStaging : IgnoresStaging frameBoundary :=
  .ite (fun _ _ => .rfl) (.ite (fun _ _ => .rfl) (raiseFault_ignoresStaging _ fun _ _ => rfl) fun _ _ => rfl) .id

theorem dispatchLine_ignoresStaging (r : Nat) : IgnoresStaging (dispatchLine r) :=
  .ite (fun _ _ => .rfl)
    (.choose (look := fun s => bandSlotAt s s.bandPtr.toNat) (fun _ _ => rfl) (rastEvent_ignoresStaging _)) .id

/-- R185 for visible line `r`. -/
theorem rasterLine_ignoresStaging (r : Nat) : IgnoresStaging fun s =>
    if (goLive r s).live then dispatchLine r (countRepeat (stepBand r (goLive r s))) else clearShapes (goLive r s) :=
  have live : IgnoresStaging (goLive r) := .ite (fun _ _ => .rfl) (fun _ _ => rfl) .id
  have band : IgnoresStaging (stepBand r) := .ite (fun _ _ => .rfl) (fun _ _ => rfl) .id
  have count : IgnoresStaging countRepeat := .ite (fun _ _ => .rfl) (fun _ _ => rfl) .id
  have afterLive : IgnoresStaging fun s =>
      if s.live then dispatchLine r (countRepeat (stepBand r s)) else clearShapes s :=
    .ite (fun _ _ => .rfl) ((dispatchLine_ignoresStaging r).comp (count.comp band)) fun _ _ => rfl
  afterLive.comp live

theorem chooseRaster_ignoresStaging : IgnoresStaging chooseRaster :=
  .ite (fun _ _ => .rfl)
    (.choose (look := fun s => s.timing.rline s.vline) (fun _ _ => rfl) rasterLine_ignoresStaging) .id

theorem eavEvent_ignoresStaging : IgnoresStaging eavEvent :=
  .ite (fun _ _ => .rfl) (raiseFault_ignoresStaging _ fun _ _ => rfl)
    (chooseRaster_ignoresStaging.thenDo.comp (frameBoundary_ignoresStaging.comp fun _ _ => rfl))

theorem dmaBeat_ignoresStaging : IgnoresStaging dmaBeat := fun _ _ => rfl

/-! #### `TICK` -/

theorem tickEvents_ignoresStaging : IgnoresStaging tickEvents :=
  have sav : IgnoresStaging fun s => if savDue s then savEvent s else s :=
    .ite (fun _ _ => .rfl) savEvent_ignoresStaging .id
  have eav : IgnoresStaging fun s => if eavDue s then eavEvent s else s :=
    .ite (fun _ _ => .rfl) eavEvent_ignoresStaging .id
  have beat : IgnoresStaging fun s => if beatDue s then dmaBeat s else s :=
    .ite (fun _ _ => .rfl) dmaBeat_ignoresStaging .id
  beat.thenDo.comp (eav.thenDo.comp sav)

theorem progress_ignoresStaging : IgnoresStaging progress := by
  intro q s
  have hop : (stageFrom q s).hop = s.hop := rfl
  unfold progress
  rw [hop]
  cases s.hop with
  | none | gateHold => rfl
  | drain => exact ite_stageFrom .rfl rfl rfl
  | waitVbl sample next => cases next <;> exact ite_stageFrom .rfl rfl rfl

theorem gateCountdown_ignoresStaging : IgnoresStaging gateCountdown := by
  intro q s
  have hop : (stageFrom q s).hop = s.hop := rfl
  unfold gateCountdown
  rw [hop]
  cases s.hop with
  | none | waitVbl | drain => rfl
  | gateHold rem target => exact ite_stageFrom .rfl rfl rfl

theorem tickHost_ignoresStaging (held : Bool) : IgnoresStaging (tickHost held) :=
  have gate : IgnoresStaging fun s => if held then gateCountdown s else s :=
    .ite (fun _ _ => .rfl) gateCountdown_ignoresStaging .id
  have count : IgnoresStaging countTick := fun _ _ => rfl
  count.thenDo.comp (progress_ignoresStaging.thenDo.comp gate.thenDo)

theorem tickStep_ignoresStaging : IgnoresStaging tickStep :=
  .ite (fun _ _ => .rfl) .id
    (.choose (look := gateHeld) (fun _ _ => rfl) fun held =>
      (tickHost_ignoresStaging held).comp tickEvents_ignoresStaging)

/-- Settles O57: a `TICK` commutes with a change of the `TD_*` registers. -/
theorem stagingDoesNotReachTheSequencer : Obligations.StagingDoesNotReachTheSequencer := by
  intro s t c h0 h1 h2 v0 v1 v2 h
  cases h
  exact congrArg Host.Outcome.next (tickStep_ignoresStaging
    { s with tdCtrl := c, tdH0 := h0, tdH1 := h1, tdH2 := h2, tdV0 := v0, tdV1 := v1, tdV2 := v2 } s)

end Sys2Proof.Machine

/-! PROOFS. The family of `30_encoding.md`: the encoder and the decoder of command words are inverse to each other (R121
to R124, R129), what a write of a command word does (R131), and the fields of a staged descriptor (R123). -/

namespace Sys2Proof

/-! ### The fields of a command word -/

theorem opField_append_argField (w : Word) : opField w ++ argField w = w :=
  BitVec.extractLsb'_append_extractLsb'

/-- What decodes: `BANDS_OPEN` with the upper bits of its argument zero, and a plain command with its whole argument
zero (R121, R122). -/
theorem decodeCmd_eq_ok_cases {w : Word} {i : Instr} (h : decodeCmd w = .ok i) :
    (opField w = 0x05#8 ∧ (argField w).extractLsb' 8 16 = 0#16 ∧ i = .bandsOpen ((argField w).extractLsb' 0 8)) ∨
    (opField w ≠ 0x05#8 ∧ argField w = 0#24 ∧ opcodeMap.lookup (opField w) = some i) := by
  unfold decodeCmd at h
  dsimp only at h
  split at h
  case isTrue hop =>
    split at h
    case isTrue harg => cases h; exact .inl ⟨hop, harg, rfl⟩
    case isFalse => cases h
  case isFalse hop =>
    split at h
    case h_1 j hj =>
      split at h
      case isTrue harg => cases h; exact .inr ⟨hop, harg, hj⟩
      case isFalse => cases h
    case h_2 => cases h

theorem mem_opcodeMap_of_lookup {op : BitVec 8} {i : Instr} (h : opcodeMap.lookup op = some i) :
    (op, i) ∈ opcodeMap := by
  obtain ⟨before, after, hsplit, _⟩ := List.lookup_eq_some_iff.1 h
  simp [hsplit]

/-! ### Decoding and encoding -/

/-- The word of `BANDS_OPEN` split at the argument field (R121, R122). -/
theorem bandsOpenWord_eq (n : BitVec 8) : 0x050000#24 ++ n = 0x05#8 ++ (0#16 ++ n) :=
  (BitVec.append_assoc (x₁ := 0x05#8) (x₂ := 0#16) (x₃ := n)).trans (BitVec.cast_eq ..)

theorem opField_bandsOpenWord (n : BitVec 8) : opField (0x050000#24 ++ n) = 0x05#8 := by
  rw [bandsOpenWord_eq]; exact BitVec.extractLsb'_append_eq_left

theorem argField_bandsOpenWord (n : BitVec 8) : argField (0x050000#24 ++ n) = 0#16 ++ n := by
  rw [bandsOpenWord_eq]; exact BitVec.extractLsb'_append_eq_right

theorem decodeCmd_bandsOpen (n : BitVec 8) : decodeCmd (0x050000#24 ++ n) = .ok (.bandsOpen n) := by
  simp only [decodeCmd, opField_bandsOpenWord, argField_bandsOpenWord, BitVec.extractLsb'_append_eq_left,
    BitVec.extractLsb'_append_eq_right, if_true]

/-- Decoding the word of a command gives the command back. -/
theorem decodeCmd_of_encodeCmd {i : Instr} {w : Word} (h : encodeCmd i = some w) : decodeCmd w = .ok i := by
  cases i with
  | bandsOpen n => cases h; exact decodeCmd_bandsOpen n
  | _ => cases h <;> rfl

/-- A row of the opcode map is the command of the word with that `op` and a zero argument (R122). -/
theorem encodeCmd_of_opcodeMap : ∀ x ∈ opcodeMap, encodeCmd x.2 = some (x.1 ++ 0#24) := by decide

/-- A word that decodes is the word of its command. -/
theorem encodeCmd_of_decodeCmd {i : Instr} {w : Word} (h : decodeCmd w = .ok i) : encodeCmd i = some w := by
  rcases decodeCmd_eq_ok_cases h with ⟨hop, hzero, rfl⟩ | ⟨_, hzero, hi⟩
  · have harg : 0#16 ++ (argField w).extractLsb' 0 8 = argField w := by
      rw [← hzero]; exact BitVec.extractLsb'_append_extractLsb'
    calc encodeCmd (.bandsOpen ((argField w).extractLsb' 0 8))
        = some (0x05#8 ++ (0#16 ++ (argField w).extractLsb' 0 8)) := congrArg some (bandsOpenWord_eq _)
      _ = some (opField w ++ argField w) := by rw [harg, hop]
      _ = some w := congrArg some (opField_append_argField w)
  · calc encodeCmd i = some (opField w ++ 0#24) := encodeCmd_of_opcodeMap _ (mem_opcodeMap_of_lookup hi)
      _ = some w := by rw [← hzero, opField_append_argField]

/-- The decoder of command words is the inverse of the encoder. -/
theorem decodeCmd_eq_ok_iff {w : Word} {i : Instr} : decodeCmd w = .ok i ↔ encodeCmd i = some w :=
  ⟨encodeCmd_of_decodeCmd, decodeCmd_of_encodeCmd⟩

/-- Settles O1: what decodes to `i` is the word of `i`, and the opcode map lists the words. -/
theorem commandWordsDecodeByTheOpcodeMap : Obligations.CommandWordsDecodeByTheOpcodeMap := by
  intro w i
  rw [decodeCmd_eq_ok_iff]
  cases i <;> simp [encodeCmd, eq_comm]

/-! ### The steps of the outside world -/

/-- The lemmas of `Laws.CommandWords` together. -/
theorem isCommandWord_of_encodeCmd {i : Instr} {w : Word} (h : encodeCmd i = some w) : isCommandWord w = true := by
  cases i with
  | new => exact Laws.CommandWords.new w h
  | cfgTiming => exact Laws.CommandWords.cfgTiming w h
  | stopSync => exact Laws.CommandWords.stopSync w h
  | rastOpen => exact Laws.CommandWords.rastOpen w h
  | bandsOpen n => exact Laws.CommandWords.bandsOpen n w h
  | rastClose => exact Laws.CommandWords.rastClose w h
  | syncVblank => exact Laws.CommandWords.syncVblank w h
  | videoOn => exact Laws.CommandWords.videoOn w h
  | videoOff => exact Laws.CommandWords.videoOff w h
  | rastDone => exact Laws.CommandWords.rastDone w h
  | rastFail => exact Laws.CommandWords.rastFail w h
  | _ => cases h

/-- A value without bits above its width is the value of the write (R89). -/
theorem Width.valueOf_of_fits {n : Width} {v : Word} (h : n.fits v = true) : n.valueOf v = v := by
  have hlt : v.toNat < 2 ^ (8 * n.bytes) := of_decide_eq_true h
  apply BitVec.eq_of_toNat_eq
  cases n with
  | byte | half =>
    simp only [Width.bytes] at hlt
    simp only [Width.valueOf, BitVec.toNat_setWidth, BitVec.extractLsb'_toNat, Nat.shiftRight_zero]
    omega
  | word => rfl

/-- A write of a command's word to `CMD` is the command (R129, R131). -/
theorem decodeInput_commandWrite {i : Instr} {w : Word} (h : encodeCmd i = some w) :
    decodeInput (.write 0#13 .word w) = some i := by
  simp [decodeInput, Width.valueOf, decodeCmd_of_encodeCmd h]

/-- A well-formed plain write stays one: a word that decodes is a command word, which R129 writes as the command. -/
theorem decodeInput_plainWrite {o : BitVec 13} {n : Width} {v : Word} (h : (Instr.wr o n v).wellFormed = true) :
    decodeInput (.write o n v) = some (.wr o n v) := by
  simp only [Instr.wellFormed, Bool.and_eq_true, Bool.not_eq_true'] at h
  obtain ⟨hfits, hplain⟩ := h
  simp only [decodeInput, Width.valueOf_of_fits hfits]
  split
  case isTrue hcmd =>
    split
    case h_1 j hj => simp [hcmd, isCommandWord_of_encodeCmd (encodeCmd_of_decodeCmd hj)] at hplain
    case h_2 => rfl
  case isFalse => rfl

/-- What has a command word is asked for by a write of it to `CMD` (R129). -/
theorem encode_of_encodeCmd {i : Instr} {w : Word} (h : encodeCmd i = some w) :
    encode i = some (.write 0#13 .word w) := by
  cases i <;> cases h <;> rfl

theorem decodeInput_of_encode {i : Instr} {x : Input} (hwf : i.wellFormed = true) (h : encode i = some x) :
    decodeInput x = some i := by
  cases hc : encodeCmd i with
  | some w =>
    obtain rfl : Input.write 0#13 .word w = x := by simpa [encode_of_encodeCmd hc] using h
    exact decodeInput_commandWrite hc
  | none =>
    cases i with
    | tick => cases h; rfl
    | rd o n => cases h; rfl
    | wr o n v => cases h; exact decodeInput_plainWrite hwf
    | sav | eav | rast | dmabeat => cases h
    | _ => cases hc

/-- The four events that only a `Tick` selects have no step of their own (R126). -/
theorem encode_eq_none_iff (i : Instr) :
    encode i = none ↔ i = .sav ∨ i = .eav ∨ (∃ r k, i = .rast r k) ∨ i = .dmabeat := by
  cases i <;> simp [encode, encodeCmd]

/-- Settles O2: a command comes back by the inverse of the encoder, a plain write because no command word is written as
one. -/
theorem decodingAnEncodedOperationGivesItBack : Obligations.DecodingAnEncodedOperationGivesItBack :=
  fun i hwf => ⟨fun _ h => decodeInput_of_encode hwf h, encode_eq_none_iff i⟩

end Sys2Proof

namespace Sys2Proof.Machine

open Sys2Proof.Safety

/-! ### Commands -/

theorem hostLegal_iff {allowed : List DState} {s : State} :
    hostLegal allowed s = true ↔ s.init = true ∧ s.dstate ∈ allowed ∧ s.hop = .none := by
  simp [hostLegal, and_assoc, and_comm (a := s.hop = .none)]

theorem issueCommand_faulted {s : State} (hf : s.faulted = true) (w : Word) (legal : Bool) (perform : State → State) :
    issueCommand w legal perform s = s := by
  simp [issueCommand, hf]

theorem issueCommand_illegal {s : State} (hf : s.faulted = false) (w : Word) (perform : State → State) :
    issueCommand w false perform s = raiseFault .illegalOp w s := by
  simp [issueCommand, hf]

/-- Every command is issued with its word, and is legal by the table of R271. -/
theorem performCommand_issues {i : Instr} {w : Word} (h : encodeCmd i = some w) (s : State) :
    ∃ legal perform, (legal = true ↔ legalHere i s) ∧ performCommand i s = issueCommand w legal perform s := by
  cases i with
  | new => cases h; unfold performCommand newCommand; exact ⟨_, _, by simp [legalHere], rfl⟩
  | bandsOpen n =>
    cases h; unfold performCommand bandsOpenCommand; exact ⟨_, _, by simp [hostLegal_iff, legalHere], rfl⟩
  | cfgTiming | stopSync | rastOpen | rastClose | syncVblank | videoOn | videoOff =>
    cases h
    simp only [performCommand, cfgTimingCommand, stopSyncCommand, rastOpenCommand, rastCloseCommand,
      syncVblankCommand, videoOnCommand, videoOffCommand]
    exact ⟨_, _, hostLegal_iff.trans (by simp [legalHere]), rfl⟩
  | rastDone | rastFail =>
    cases h; simp only [performCommand, rastDoneCommand, rastFailCommand]; exact ⟨_, _, .rfl, rfl⟩
  | _ => cases h

section

variable {i : Instr} {w : Word} (h : encodeCmd i = some w) {s : State}

include h

/-- A faulted VTC drops every command (R305). -/
theorem performCommand_faulted (hf : s.faulted = true) : performCommand i s = s := by
  obtain ⟨legal, perform, _, hissue⟩ := performCommand_issues h s
  rw [hissue, issueCommand_faulted hf]

/-- A command that is not legal raises fault 6 with its word (R131, R272). -/
theorem performCommand_illegal (hf : s.faulted = false) (hno : ¬ legalHere i s) :
    performCommand i s = raiseFault .illegalOp w s := by
  obtain ⟨legal, perform, hlegal, hissue⟩ := performCommand_issues h s
  obtain rfl : legal = false := Bool.eq_false_iff.2 (mt hlegal.1 hno)
  rw [hissue, issueCommand_illegal hf]

theorem exec_command : exec i s = .next (performCommand i s) := exec_eq_performCommand s (by simp [h])

end

/-- Settles O14: each command's own test of legality is the row of R271. -/
theorem illegalCommandFaultsWithItsWord : Obligations.IllegalCommandFaultsWithItsWord := by
  intro s i w hf hw hno
  rw [exec_command hw, performCommand_illegal hw hf hno]

/-! ### Writes to `CMD` -/

theorem writeStep_cmd {s : State} (hf : s.faulted = false) (w : Word) :
    writeStep 0#13 .word w s = commandWrite w s := by
  simp [writeStep, hf, target_cmd]

/-- Settles O5: the word decodes to the command, and both are dropped when faulted. -/
theorem writingACommandWordIsTheCommand : Obligations.WritingACommandWordIsTheCommand := by
  intro s i w hw
  rw [exec_command hw]
  refine congrArg Host.Outcome.next ?_
  cases hf : s.faulted with
  | true => rw [writeStep_faulted hf, performCommand_faulted hw hf]
  | false => rw [writeStep_cmd hf, commandWrite_ok (decodeCmd_of_encodeCmd hw)]

/-- Of the command words R124 calls only that of `BANDS_OPEN` illegal, and that only without `HAS_BANDS`. -/
theorem bandsOpen_of_illegalWord {p : Params} {w : Word} {i : Instr} (h : encodeCmd i = some w)
    (hbad : illegalWord p w) : p.hasBands = false ∧ ∃ n, i = .bandsOpen n := by
  cases i with
  | bandsOpen n =>
    cases h
    have hop : (0x050000#24 ++ n).extractLsb' 24 8 = 0x05#8 := opField_bandsOpenWord n
    have harg : (0x050000#24 ++ n).extractLsb' 0 24 = 0#16 ++ n := argField_bandsOpenWord n
    simp only [illegalWord, hop, harg, BitVec.extractLsb'_append_eq_left] at hbad
    exact ⟨by simpa using hbad, n, rfl⟩
  | _ => cases h <;> simp [illegalWord] at hbad

/-- Settles O4: an illegal word does not decode, or it is a `BANDS_OPEN`, which is decoded and then not legal (log entry
12). -/
theorem illegalCommandWordFaults : Obligations.IllegalCommandWordFaults := by
  intro s w hf hbad
  refine congrArg Host.Outcome.next ((writeStep_cmd hf w).trans ?_)
  cases hd : decodeCmd w with
  | error e => exact commandWrite_error hd s
  | ok i =>
    have hw := encodeCmd_of_decodeCmd hd
    obtain ⟨hbands, n, rfl⟩ := bandsOpen_of_illegalWord hw hbad
    have hno : ¬ legalHere (.bandsOpen n) s := by simp [legalHere, hbands]
    rw [commandWrite_ok hd, performCommand_illegal hw hf hno]

/-! ### The staged descriptor -/

theorem lowHalf_append (high low : Half) : lowHalf (high ++ low) = low := BitVec.extractLsb'_append_eq_right

theorem highHalf_append (high low : Half) : highHalf (high ++ low) = high := BitVec.extractLsb'_append_eq_left

/-- Settles O16: each field is taken from the word at the place where the assembly put it, whatever is above it. -/
theorem stagedDescriptorFields : Obligations.StagedDescriptorFields := by
  intro s cpp hpol vpol reserved res2 res3 hSync hBp hVideo hFp hTotal vSync vBp vVideo vFp vTotal
  simp only [stagedTiming, lowHalf_append, highHalf_append, BitVec.extractLsb'_append_eq_right, BitVec.getLsbD_append]
  simp

end Sys2Proof.Machine

/-! PROOFS. The family of `41_sync_generator.md`: which descriptor is valid (R151), what `CFG_TIMING` and `STOP_SYNC` do
(R152, R153, R156), and what a `TICK` does by the event that falls in it (R157). -/

namespace Sys2Proof.Machine

open Sys2Proof.Safety

/-! ### Where a host operation does not progress -/

theorem progress_of_hop_none {s : State} (h : s.hop = .none) : progress s = s := by
  simp [progress, h]

/-- A wait goes on until the counter has passed its sample (R276). -/
theorem progress_of_waitVbl_le {s : State} {sample : Word} {next : WaitThen} (h : s.hop = .waitVbl sample next)
    (hle : s.vblCount.toNat ≤ sample.toNat) : progress s = s := by
  simp [progress, h, Nat.not_lt.2 hle]

/-- A drain goes on while the rasterization in flight does (R276). -/
theorem progress_of_drain_busy {s : State} (h : s.hop = .drain) (hb : s.rastBusy = true) : progress s = s := by
  simp [progress, h, hb]

/-- A legal command after which no host operation is in progress is its effect alone: its `progress()` does nothing. -/
theorem issueCommand_completes {s : State} {perform : State → State} (hf : s.faulted = false) (w : Word)
    (hrun : (perform s).faulted = false) (hhop : (perform s).hop = .none) :
    issueCommand w true perform s = perform s := by
  simp [issueCommand, hf, thenDo_running hrun, progress_of_hop_none hhop]

/-! ### The two commands -/

/-- The validity clauses V1 to V5 (R151). -/
theorem Timing.valid_iff (d : Timing) : d.valid = true ↔
    d.cpp ≠ 0 ∧ (d.hBp ≠ 0 ∧ d.hFp ≠ 0 ∧ d.vBp ≠ 0 ∧ d.vFp ≠ 0) ∧ d.cpp.toNat * d.hTotal.toNat ≤ 65535 ∧
    d.hTotal.toNat = d.hSync.toNat + d.hBp.toNat + d.hVideo.toNat + d.hFp.toNat ∧
    d.vTotal.toNat = d.vSync.toNat + d.vBp.toNat + d.vVideo.toNat + d.vFp.toNat := by
  simp [Timing.valid, and_assoc]

/-- Where it is legal, `CFG_TIMING` starts the timers or refuses, and completes in its own step (R151). -/
theorem exec_cfgTiming_legal {s : State} (hf : s.faulted = false) (hl : legalHere .cfgTiming s) :
    exec .cfgTiming s = .next (if (stagedTiming s).valid then startSync s else refuse 1 s) := by
  obtain ⟨hinit, hidle, hhop⟩ := hl
  have hlegal : hostLegal [.idle] s = true := hostLegal_iff.2 ⟨hinit, by simp [hidle], hhop⟩
  refine congrArg Host.Outcome.next ?_
  unfold cfgTimingCommand
  rw [hlegal]
  refine issueCommand_completes hf _ ?_ ?_ <;> cases (stagedTiming s).valid <;> simp [hf, hhop]

/-- Settles O17: the clauses are those of `Timing.valid`, and legality is the row of R271. -/
theorem cfgTimingValidityAndLegality : Obligations.CfgTimingValidityAndLegality :=
  ⟨Timing.valid_iff, fun s hf hno => illegalCommandFaultsWithItsWord s .cfgTiming _ hf rfl hno⟩

/-- Settles O18: with a valid descriptor the effect is `startSync`, whose divisor is the `cpp` of the staged words. -/
theorem cfgTimingStartsSync : Obligations.CfgTimingStartsSync := by
  intro s hf
  refine ⟨illegalCommandFaultsWithItsWord s .cfgTiming _ hf rfl, fun hl hvalid => ?_⟩
  rw [exec_cfgTiming_legal hf hl, if_pos hvalid]
  rfl

/-- Settles O19: with a descriptor that is not valid the effect is `refuse(1)`. -/
theorem cfgTimingRefusesABadDescriptor : Obligations.CfgTimingRefusesABadDescriptor := by
  intro s hf hl hbad
  rw [exec_cfgTiming_legal hf hl, hbad]
  rfl

/-- Settles O20: a legal `STOP_SYNC` finds no host operation and leaves none, so that its effect is all it does. -/
theorem stopSyncStopsTheTimers : Obligations.StopSyncStopsTheTimers := by
  intro s hf
  refine ⟨fun ⟨hinit, hsync, hhop⟩ => congrArg Host.Outcome.next ?_,
    illegalCommandFaultsWithItsWord s .stopSync _ hf rfl⟩
  have hlegal : hostLegal [.syncGen] s = true := hostLegal_iff.2 ⟨hinit, by simp [hsync], hhop⟩
  unfold stopSyncCommand
  rw [hlegal]
  exact issueCommand_completes hf _ hf hhop

/-! ### What the events leave of a transfer -/

/-- A transfer that runs after `SAV` was armed by it, and its first beat is due at `M_PIX0` (R182 step 5). -/
theorem savEvent_dmaNext {s : State} (h : (savEvent s).dmaActive = true) : (savEvent s).dmaNext = s.timing.mPix0 := by
  rcases savEvent_cases s with ⟨_, he⟩ | ⟨_, _, he⟩ | ⟨_, _, _, he⟩ | ⟨_, _, hidle, he⟩ <;> rw [he] at h ⊢
  case inr.inr.inr =>
    rcases armDma_cases (swapBuffers s) with ⟨_, ha⟩ | ⟨_, _, ha⟩ <;> rw [ha] at h ⊢
    case inl => simp [hidle] at h
    case inr => simp
  all_goals simp at h

theorem rastEvent_keeps_idle_dma {s : State} (r : Half) (k : BitVec 8) (h : s.dmaActive = false) :
    (rastEvent r k s).dmaActive = false := by
  rcases rastEvent_cases r k s with ⟨_, he⟩ | ⟨_, he⟩ <;> simp [he, h]

theorem frameBoundary_keeps_idle_dma {s : State} (h : s.dmaActive = false) : (frameBoundary s).dmaActive = false := by
  rcases frameBoundary_cases s with ⟨_, he⟩ | ⟨_, _, he⟩ | ⟨_, _, he⟩ <;> simp [he, h]

theorem chooseRaster_keeps_idle_dma {s : State} (h : s.dmaActive = false) : (chooseRaster s).dmaActive = false := by
  rcases chooseRaster_cases s with ⟨_, he⟩ | ⟨_, _, he⟩ | ⟨_, _, he⟩
  · rw [he, h]
  · simp [he, h]
  · rw [he]
    rcases dispatchLine_cases (s.timing.rline s.vline)
        (countRepeat (stepBand (s.timing.rline s.vline) (goLive (s.timing.rline s.vline) s))) with
      ⟨_, hd⟩ | ⟨_, hd⟩ <;> rw [hd]
    · exact rastEvent_keeps_idle_dma _ _ (by simp [h])
    · simp [h]

/-- `EAV` ends the transfer, also where it raises a fault (R183 step 2, R303). -/
@[simp] theorem eavEvent_dmaActive (s : State) : (eavEvent s).dmaActive = false := by
  rcases eavEvent_cases s with ⟨_, _, he⟩ | ⟨_, he⟩ <;> rw [he]
  · simp
  · have hidle := frameBoundary_keeps_idle_dma
      (s := { s with dmaActive := false, videoOut := 0, vline := nextLine s }) rfl
    unfold thenDo
    split
    · exact hidle
    · exact chooseRaster_keeps_idle_dma hidle

/-! ### Sub-steps 1 to 3 of a `TICK` -/

/-- A sub-step whose event is not due changes nothing. -/
theorem thenDo_not_due {s : State} {due : State → Bool} (h : due s = false) (event : State → State) :
    thenDo s (fun s => if due s then event s else s) = s := by
  simp [thenDo, h]

theorem savDue_eq_false_iff (s : State) : savDue s = false ↔
    ¬ (s.evtMask = false ∧ s.hcount.toNat = s.timing.mSav ∧ s.timing.visible s.vline = true) := by
  rw [← savDue_iff, Bool.not_eq_true]

theorem eavDue_eq_false_iff (s : State) :
    eavDue s = false ↔ ¬ (s.evtMask = false ∧ s.hcount.toNat = s.timing.mEav) := by
  rw [← eavDue_iff, Bool.not_eq_true]

theorem beatDue_eq_false_iff (s : State) : beatDue s = false ↔ ¬ (s.dmaActive = true ∧ s.hcount.toNat = s.dmaNext) := by
  rw [← beatDue_iff, Bool.not_eq_true]

/-- At `M_SAV` neither `EAV` nor the first beat of the transfer just armed is due: both come later in the line. -/
theorem tickEvents_sav {s : State} (hvalid : s.timing.valid = true) (hSav : savDue s = true) :
    tickEvents s = savEvent s := by
  obtain ⟨_, hpix, heav, _⟩ := Timing.valid_order hvalid
  obtain ⟨_, hcount, _⟩ := (savDue_iff s).1 hSav
  have noEav : eavDue (savEvent s) = false := (eavDue_eq_false_iff _).2 fun ⟨_, h⟩ => by
    rw [savEvent_hcount, savEvent_timing] at h; omega
  have noBeat : beatDue (savEvent s) = false := (beatDue_eq_false_iff _).2 fun ⟨hactive, h⟩ => by
    rw [savEvent_hcount, savEvent_dmaNext hactive] at h; omega
  simp only [tickEvents, hSav, if_true, thenDo_not_due noEav, thenDo_not_due noBeat]

/-- At `M_EAV` the beat that was due is cancelled, for `EAV` has ended the transfer. -/
theorem tickEvents_eav {s : State} (hf : s.faulted = false) (hvalid : s.timing.valid = true) (hEav : eavDue s = true) :
    tickEvents s = eavEvent s := by
  obtain ⟨_, hpix, hlate, _⟩ := Timing.valid_order hvalid
  obtain ⟨_, hcount⟩ := (eavDue_iff s).1 hEav
  have noSav : savDue s = false := (savDue_eq_false_iff s).2 fun ⟨_, h, _⟩ => by omega
  have noBeat : beatDue (eavEvent s) = false := by simp [beatDue]
  simp [tickEvents, noSav, hEav, thenDo_running hf, thenDo_not_due noBeat]

theorem tickEvents_beat {s : State} (hf : s.faulted = false) (hSav : savDue s = false) (hEav : eavDue s = false)
    (hBeat : beatDue s = true) : tickEvents s = dmaBeat s := by
  simp [tickEvents, hSav, thenDo_not_due hEav, thenDo_running hf, hBeat]

/-! ### The whole `TICK` -/

/-- The sub-steps after the event `u`: none when it faulted, else the gate countdown, `progress()` and the count
(R157). -/
theorem exec_tick_of_tickEvents {s u : State} (hf : s.faulted = false) (hr : s.timRun = true) (h : tickEvents s = u) :
    (u.faulted = true → exec .tick s = .next u) ∧
    (u.faulted = false →
      exec .tick s = .next (countTick (progress (if gateHeld s then gateCountdown u else u)))) := by
  have htick : exec .tick s = .next (tickHost (gateHeld s) u) := by
    rw [← h]; exact congrArg Host.Outcome.next (tickStep_running hf hr)
  rw [htick]
  exact ⟨fun hu => by rw [tickHost_faulted hu], fun hu => by rw [tickHost_running hu]⟩

theorem performEvent_running {s : State} (hf : s.faulted = false) (event : State → State) :
    performEvent event s = event s := by
  simp [performEvent, hf]

/-- Settles O37: of the first three sub-steps `SAV` alone does something. -/
theorem tickPerformsSav : Obligations.TickPerformsSav := by
  intro s hf hr hvalid hmask hcount hvisible
  have hSav : savDue s = true := (savDue_iff s).2 ⟨hmask, hcount, hvisible⟩
  exact ⟨savEvent s, congrArg Host.Outcome.next (performEvent_running hf savEvent),
    exec_tick_of_tickEvents hf hr (tickEvents_sav hvalid hSav)⟩

/-- Settles O38: of the first three sub-steps `EAV` alone does something. -/
theorem tickPerformsEav : Obligations.TickPerformsEav := by
  intro s hf hr hvalid hmask hcount
  have hEav : eavDue s = true := (eavDue_iff s).2 ⟨hmask, hcount⟩
  exact ⟨eavEvent s, congrArg Host.Outcome.next (performEvent_running hf eavEvent),
    exec_tick_of_tickEvents hf hr (tickEvents_eav hf hvalid hEav)⟩

/-- Settles O39: of the first three sub-steps the beat alone does something, and it raises no fault. -/
theorem tickPerformsDmaBeat : Obligations.TickPerformsDmaBeat := by
  intro s hf hr hactive hnext hnoSav hnoEav
  have hevents : tickEvents s = dmaBeat s := tickEvents_beat hf ((savDue_eq_false_iff s).2 hnoSav)
    ((eavDue_eq_false_iff s).2 hnoEav) ((beatDue_iff s).2 ⟨hactive, hnext⟩)
  have hrun : (dmaBeat s).faulted = false := hf
  exact ⟨dmaBeat s, congrArg Host.Outcome.next (performEvent_running hf dmaBeat), hrun,
    (exec_tick_of_tickEvents hf hr hevents).2 hrun⟩

/-- Settles O36: with no event the `TICK` is its last two sub-steps, and where the host operation has to wait on the
first of them does nothing. -/
theorem tickWithoutEventCounts : Obligations.TickWithoutEventCounts := by
  intro s
  refine ⟨fun h => congrArg Host.Outcome.next (tickStep_stopped h), fun hf hr hnoSav hnoEav hnoBeat => ?_⟩
  have hevents : tickEvents s = s := tickEvents_none ((savDue_eq_false_iff s).2 hnoSav)
    ((eavDue_eq_false_iff s).2 hnoEav) ((beatDue_eq_false_iff s).2 hnoBeat)
  have counts (hfree : ∀ rem target, s.hop ≠ .gateHold rem target) : exec .tick s = .next (countTick (progress s)) := by
    have hheld : gateHeld s = false := Bool.eq_false_iff.2 fun h =>
      let ⟨rem, target, hhop⟩ := (gateHeld_iff s).1 h
      hfree rem target hhop
    simpa [hheld] using (exec_tick_of_tickEvents hf hr hevents).2 hf
  refine ⟨counts, fun hwaits => ?_⟩
  rcases hwaits with hhop | ⟨sample, next, hhop, hle⟩ | ⟨hhop, hbusy⟩
  · rw [counts (by simp [hhop]), progress_of_hop_none hhop]; rfl
  · rw [counts (by simp [hhop]), progress_of_waitVbl_le hhop hle]; rfl
  · rw [counts (by simp [hhop]), progress_of_drain_busy hhop hbusy]; rfl

end Sys2Proof.Machine

/-! PROOFS. The family of `42_scanout_engine.md`: what the events `SAV`, `EAV`, `RAST` and `DMABEAT` do (R182 to R187),
what the commands `RAST_DONE` and `RAST_FAIL` do (R193, R194), and where a deadline can be missed (R195). -/

namespace Sys2Proof.Machine

open Sys2Proof.Safety

/-! ### The events that have no check but their own -/

/-- Settles O35: a beat has no check, so it is `dmaBeat` in every state that has not faulted. -/
theorem dmaBeatDrivesOneByte : Obligations.DmaBeatDrivesOneByte :=
  fun _ hf => congrArg Host.Outcome.next (performEvent_running hf dmaBeat)

theorem rastEvent_busy {s : State} (hb : s.rastBusy = true) (r : Half) (k : BitVec 8) :
    rastEvent r k s = raiseFault .deadlineMiss (s.rastLine.setWidth 32) s := by
  simp [rastEvent, hb]

theorem rastEvent_idle {s : State} (hb : s.rastBusy = false) (r : Half) (k : BitVec 8) :
    rastEvent r k s = { s with
      rastBusy := true, rastLine := r, rastSlot := k, rastFn := slotFnAt s k.toNat
      ctxRange := 0x00000000#32, ctxMode := 0x00000001#32 } := by
  simp [rastEvent, hb]

theorem slotFnAt_of_lt (s : State) {k : Nat} (h : k < 16) : slotFnAt s k = s.slotFn[k] := by
  simp [slotFnAt, arrayAt, h]

/-- Settles O34: the one check of R186 is `rast_busy`. -/
theorem rastHandsOverAFreshContext : Obligations.RastHandsOverAFreshContext := by
  intro s r k hf
  have hexec : exec (.rast r k) s = .next (rastEvent r k s) :=
    congrArg Host.Outcome.next (performEvent_running hf (rastEvent r k))
  rw [hexec]
  exact ⟨fun hb => by rw [rastEvent_idle hb], fun h => slotFnAt_of_lt s h, fun hb => by rw [rastEvent_busy hb]⟩

/-! ### `RAST_DONE` and `RAST_FAIL` -/

theorem issueCommand_legal {s : State} (hf : s.faulted = false) (w : Word) (perform : State → State) :
    issueCommand w true perform s = thenDo (perform s) progress := by
  simp [issueCommand, hf]

/-- A legal command whose effect is a fault ends with it: its `progress()` is not performed (R303 step 4). -/
theorem issueCommand_raises {s : State} {perform : State → State} {c : Cause} {info : Word} (hf : s.faulted = false)
    (w : Word) (h : perform s = raiseFault c info s) : issueCommand w true perform s = raiseFault c info s := by
  rw [issueCommand_legal hf, h, thenDo_faulted (raiseFault_faulted c info s)]

theorem rastFailCommand_busy {s : State} (hf : s.faulted = false) (hb : s.rastBusy = true) :
    rastFailCommand s = raiseFault .rasterizerFault (s.rastLine.setWidth 32) s := by
  unfold rastFailCommand
  rw [hb]
  exact issueCommand_raises hf _ rfl

/-- Settles O29: the effect of `RAST_FAIL` is fault entry, and its legality the row of R271. -/
theorem rastFailIsAFault : Obligations.RastFailIsAFault := fun s hf =>
  ⟨fun hb => congrArg Host.Outcome.next (rastFailCommand_busy hf hb),
    fun hb => illegalCommandFaultsWithItsWord s .rastFail _ hf rfl (by simp [legalHere, hb])⟩

/-- The bounds of a context record (R193 step 2). -/
theorem badContext_iff (s : State) : badContext s = true ↔
    ctxRepeat s.ctxMode = 0 ∨ (highHalf s.ctxRange).toNat < (lowHalf s.ctxRange).toNat ∨
      s.params.bufBytes < (highHalf s.ctxRange).toNat := by
  simp [badContext, or_assoc]

/-- The bounds of the effective divisor (R193 step 3). -/
theorem divOutOfRange_iff (s : State) : divOutOfRange s = true ↔
    (effectiveDiv s).toNat < s.params.ovrMin ∨ s.params.ovrMax < (effectiveDiv s).toNat := by
  simp [divOutOfRange]

/-- The commit with the shape of either buffer written out (R193 steps 4 to 8). -/
theorem commitContext_eq (s : State) :
    commitContext s = { s with
      ctx0 := if s.work then s.ctx0 else { start := lowHalf s.ctxRange, stop := highHalf s.ctxRange, valid := true }
      ctx1 := if s.work then { start := lowHalf s.ctxRange, stop := highHalf s.ctxRange, valid := true } else s.ctx1
      repeatCtr := ctxRepeat s.ctxMode
      fresh := true
      shiftDiv := effectiveDiv s
      rastBusy := false } := by
  unfold commitContext setShape
  cases s.work <;> rfl

section

variable {s : State} (hf : s.faulted = false) (hb : s.rastBusy = true)

include hf hb

theorem rastDoneCommand_badContext (hbad : badContext s = true) :
    rastDoneCommand s = raiseFault .badCtx (s.rastLine.setWidth 32) s := by
  unfold rastDoneCommand
  rw [hb]
  exact issueCommand_raises hf _ (if_pos hbad)

theorem rastDoneCommand_divOutOfRange (hok : badContext s = false) (hfar : divOutOfRange s = true) :
    rastDoneCommand s = raiseFault .cppRange ((effectiveDiv s).setWidth 32) s := by
  unfold rastDoneCommand
  rw [hb]
  exact issueCommand_raises hf _ (by simp [hok, hfar])

theorem rastDoneCommand_commits (hok : badContext s = false) (hnear : divOutOfRange s = false) :
    rastDoneCommand s = progress (commitContext s) := by
  have hrun : (commitContext s).faulted = false := by rw [commitContext_faulted, hf]
  unfold rastDoneCommand
  rw [hb, issueCommand_legal hf]
  simp only [hok, hnear, Bool.false_eq_true, if_false]
  exact thenDo_running hrun progress

end

/-- Settles O28: the two tests of the statement are those of R193, made in its order. -/
theorem rastDoneCommitsTheContext : Obligations.RastDoneCommitsTheContext := by
  intro s hf start stop rep eff bad far shape
  have hbad : badContext s = true ↔ bad := badContext_iff s
  have hfar : divOutOfRange s = true ↔ far := divOutOfRange_iff s
  have accept {p : Prop} {b : Bool} (h : b = true ↔ p) (hp : ¬ p) : b = false := Bool.eq_false_iff.2 (mt h.1 hp)
  refine ⟨fun hb => illegalCommandFaultsWithItsWord s .rastDone _ hf rfl (by simp [legalHere, hb]),
    fun hb h => congrArg Host.Outcome.next ?bad, fun hb hok h => congrArg Host.Outcome.next ?far,
    fun hb hok hnear => congrArg Host.Outcome.next ?commit⟩
  case bad => exact rastDoneCommand_badContext hf hb (hbad.2 h)
  case far => exact rastDoneCommand_divOutOfRange hf hb (accept hbad hok) (hfar.2 h)
  case commit =>
    exact (rastDoneCommand_commits hf hb (accept hbad hok) (accept hfar hnear)).trans
      (congrArg progress (commitContext_eq s))

/-! ### `SAV` -/

theorem exec_sav {s : State} (hf : s.faulted = false) : exec .sav s = .next (savEvent s) :=
  congrArg Host.Outcome.next (performEvent_running hf savEvent)

theorem savEvent_mutexHeld {s : State} (hm : s.mtxOwner = .thread) :
    savEvent s = raiseFault .threadMutex (s.vline.setWidth 32) s := by
  simp [savEvent, hm]

theorem savEvent_busy {s : State} (hm : s.mtxOwner = .free) (hb : s.rastBusy = true) :
    savEvent s = raiseFault .deadlineMiss (s.rastLine.setWidth 32) s := by
  simp [savEvent, hm, hb]

theorem savEvent_moving {s : State} (hm : s.mtxOwner = .free) (hb : s.rastBusy = false) (hd : s.dmaActive = true) :
    savEvent s = raiseFault .deadlineMiss 0xFFFFFFFF#32 s := by
  simp [savEvent, hm, hb, hd]

theorem savEvent_ready {s : State} (hm : s.mtxOwner = .free) (hb : s.rastBusy = false) (hd : s.dmaActive = false) :
    savEvent s = armDma (swapBuffers s) := by
  simp [savEvent, hm, hb, hd]

/-- The swap as one assignment, whether a committed buffer waits or not (R182 step 4). -/
theorem swapBuffers_eq (s : State) :
    swapBuffers s = { s with work := if s.fresh then !s.work else s.work, fresh := false } := by
  rcases swapBuffers_cases s with ⟨hw, he⟩ | ⟨hw, he⟩ <;> rw [he, hw]
  · rfl
  · exact congrArg (fun b => { s with fresh := b }) hw

/-- The shape of the scanout buffer is that of the buffer that is not `work` (R38, R39). -/
theorem shapeOf_not (s : State) (b : Bool) : shapeOf s (!b) = if b then s.ctx0 else s.ctx1 := by
  cases b <;> rfl

theorem armDma_arms {s : State} {c : Shape} (hc : shapeOf s (!s.work) = c) (hvalid : c.valid = true)
    (hlt : c.start.toNat < c.stop.toNat) :
    armDma s = { s with
      dmaActive := true, dmaPtr := c.start, dmaRem := c.stop - c.start, dmaDiv := s.shiftDiv
      dmaNext := s.timing.mPix0 } := by
  simp [armDma, hc, hvalid, hlt]

theorem armDma_nothing {s : State} {c : Shape} (hc : shapeOf s (!s.work) = c)
    (hno : ¬ (c.valid = true ∧ c.start.toNat < c.stop.toNat)) : armDma s = s := by
  simp [armDma, hc, hno]

/-- Settles O30: the checks in the order of R182, then the swap, then the transfer of the shape found after it. -/
theorem savSwapsAndArmsTheDma : Obligations.SavSwapsAndArmsTheDma := by
  intro s hf work c
  rw [exec_sav hf]
  have hc : shapeOf { s with work := work, fresh := false } (!work) = c := shapeOf_not _ work
  refine ⟨fun hm => by rw [savEvent_mutexHeld hm], fun hm hb => by rw [savEvent_busy hm hb],
    fun hm hb hd => by rw [savEvent_moving hm hb hd], fun hm hb hd hvalid hlt => ?arms, fun hm hb hd hno => ?nothing⟩
  case arms =>
    rw [savEvent_ready hm hb hd, swapBuffers_eq, armDma_arms hc hvalid hlt]
    rfl
  case nothing => rw [savEvent_ready hm hb hd, swapBuffers_eq, armDma_nothing hc hno]

/-! ### `EAV` -/

/-- The end of a line: the transfer ends, the port is blanked, and `vline` becomes `nv` (R183). -/
def endLine (nv : Half) (s : State) : State := { s with dmaActive := false, videoOut := 0, vline := nv }

theorem exec_eav {s : State} (hf : s.faulted = false) : exec .eav s = .next (eavEvent s) :=
  congrArg Host.Outcome.next (performEvent_running hf eavEvent)

theorem eavEvent_mutexHeld {s : State} (hm : s.mtxOwner = .thread) (hv : s.timing.visible (nextLine s) = true) :
    eavEvent s = raiseFault .threadMutex ((nextLine s).setWidth 32) s := by
  simp [eavEvent, hm, hv]

theorem eavEvent_ready {s : State} (h : ¬ (s.mtxOwner = .thread ∧ s.timing.visible (nextLine s) = true)) :
    eavEvent s = thenDo (frameBoundary (endLine (nextLine s) s)) chooseRaster :=
  if_neg h

/-- Settles O32: the first check of `EAV` (R183 step 2). -/
theorem eavFindsTheMutexHeld : Obligations.EavFindsTheMutexHeld := by
  intro s hf hm nv hv
  rw [exec_eav hf]
  exact congrArg Host.Outcome.next (eavEvent_mutexHeld hm hv)

theorem frameBoundary_elsewhere {s : State} (h : s.vline ≠ 0) : frameBoundary s = s :=
  if_neg h

theorem frameBoundary_counts {s : State} (h : s.vline = 0) (hmax : s.vblCount ≠ 0xFFFFFFFF#32) :
    frameBoundary s = { s with vblCount := s.vblCount + 1, vblFlag := true, bandPtr := 0, repeatCtr := 0 } := by
  rw [frameBoundary, if_pos h, if_neg hmax]

theorem frameBoundary_overflows {s : State} (h : s.vline = 0) (hmax : s.vblCount = 0xFFFFFFFF#32) :
    frameBoundary s = raiseFault .vblankOverflow 0 s := by
  rw [frameBoundary, if_pos h, if_pos hmax]

/-- On a blanking line there is nothing to rasterize (R185). -/
theorem chooseRaster_blanking {s : State} (h : s.timing.visible s.vline = false) : chooseRaster s = s := by
  simp [chooseRaster, h]

/-- An `EAV` that moves to a blanking line ends the line and crosses the frame boundary, and no more (R183, R184). -/
theorem eavEvent_blanking {s : State} (hv : s.timing.visible (nextLine s) = false) :
    eavEvent s = frameBoundary (endLine (nextLine s) s) := by
  have hdark : chooseRaster (frameBoundary (endLine (nextLine s) s)) = frameBoundary (endLine (nextLine s) s) :=
    chooseRaster_blanking (by rw [frameBoundary_timing, frameBoundary_vline]; exact hv)
  rw [eavEvent_ready (by simp [hv]), thenDo, hdark, ite_self]

/-- Settles O31: `EAV` is the end of the line and the frame boundary, whose three cases are those of R184. -/
theorem eavIntoBlanking : Obligations.EavIntoBlanking := by
  intro s hf nv hv
  have hline : (endLine (nextLine s) s).vline = nv := rfl
  rw [exec_eav hf, eavEvent_blanking hv]
  refine ⟨fun hne => ?within, fun hzero hmax => ?counts, fun hzero hmax => ?overflows⟩
  case within =>
    rw [frameBoundary_elsewhere (by rwa [hline])]
    rfl
  case counts =>
    rw [frameBoundary_counts (hline.trans hzero) hmax, ← hzero]
    rfl
  case overflows =>
    rw [frameBoundary_overflows (hline.trans hzero) hmax, ← hzero]
    rfl

/-! ### What to rasterize next -/

theorem nextLine_within {s : State} (h : s.vline.toNat + 1 ≠ s.timing.vTotal.toNat) : nextLine s = s.vline + 1 := by
  simp [nextLine, h]

/-- An `EAV` within the frame to a visible line, with the mutex free: the line ends and the next one is looked at
(R185). -/
theorem eavEvent_visible {s : State} (hf : s.faulted = false) (hm : s.mtxOwner = .free) (hne : nextLine s ≠ 0) :
    eavEvent s = chooseRaster (endLine (nextLine s) s) := by
  have hline : (endLine (nextLine s) s).vline ≠ 0 := hne
  have hrun : (endLine (nextLine s) s).faulted = false := hf
  rw [eavEvent_ready (by simp [hm]), frameBoundary_elsewhere hline, thenDo_running hrun]

/-- Visible line `r` has a live rasterizer: it had one before, or it is line 0 with a published and loaded band
(R185 step 1). -/
def liveAt (r : Nat) (s : State) : Prop :=
  s.live = true ∨ (r = 0 ∧ s.dstate = .rasterLoaded ∧ 1 ≤ s.bandN.toNat ∧ tagLoaded s (bandSlotAt s 0).toNat = true)

theorem goLive_of_liveAt {r : Nat} {s : State} (h : liveAt r s) : goLive r s = { s with live := true } := by
  rcases goLive_cases r s with ⟨_, _, _, _, he⟩ | ⟨hno, he⟩
  · exact he
  · have hlive : s.live = true := h.resolve_right hno
    rw [he, ← hlive]

theorem goLive_of_not_liveAt {r : Nat} {s : State} (h : ¬ liveAt r s) : goLive r s = s := by
  rcases goLive_cases r s with ⟨hr, hd, hn, ht, _⟩ | ⟨_, he⟩
  · exact absurd (.inr ⟨hr, hd, hn, ht⟩) h
  · exact he

theorem chooseRaster_not_liveAt {s : State} (hv : s.timing.visible s.vline = true)
    (h : ¬ liveAt (s.timing.rline s.vline) s) : chooseRaster s = clearShapes s := by
  have hlive : s.live = false := Bool.eq_false_iff.2 fun hl => h (.inl hl)
  simp [chooseRaster, hv, goLive_of_not_liveAt h, hlive]

/-- Line `r` is the first of the next band (R185 step 3a). -/
def atBoundary (r : Nat) (s : State) : Prop :=
  s.bandPtr.toNat + 1 < s.bandN.toNat ∧ r = (bandEnd (bandRangeAt s s.bandPtr.toNat)).toNat

/-- `ptr` and `rep` are the band pointer and the repeat counter that R185 steps 3a and 3b leave for line `r`. -/
def Advances (r : Nat) (s : State) (ptr : BitVec 8) (rep : Half) : Prop :=
  (atBoundary r s ∧ ptr = s.bandPtr + 1 ∧ rep = 0) ∨
  (¬ atBoundary r s ∧ ptr = s.bandPtr ∧ rep = (if s.repeatCtr = 0 then 0 else s.repeatCtr - 1))

theorem countRepeat_eq (s : State) :
    countRepeat s = { s with repeatCtr := if s.repeatCtr = 0 then 0 else s.repeatCtr - 1 } := by
  rcases countRepeat_cases s with ⟨hpos, he⟩ | ⟨hzero, he⟩
  · have hne : s.repeatCtr ≠ 0 := fun h => by simp [h] at hpos
    rw [he, if_neg hne]
  · have hz : s.repeatCtr = 0 := BitVec.eq_of_toNat_eq hzero
    rw [he, if_pos hz, ← hz]

theorem countRepeat_stepBand {r : Nat} {s : State} {ptr : BitVec 8} {rep : Half} (h : Advances r s ptr rep) :
    countRepeat (stepBand r s) = { s with bandPtr := ptr, repeatCtr := rep } := by
  rw [countRepeat_eq]
  rcases h with ⟨⟨hlt, hr⟩, rfl, rfl⟩ | ⟨hno, rfl, rfl⟩
  · rcases stepBand_cases r s with ⟨_, _, he⟩ | ⟨hno, _⟩
    · rw [he]; rfl
    · exact absurd ⟨hlt, hr⟩ hno
  · rcases stepBand_cases r s with ⟨hlt, hr, _⟩ | ⟨_, he⟩
    · exact absurd ⟨hlt, hr⟩ hno
    · rw [he]

theorem dispatchLine_repeat {s : State} (h : s.repeatCtr ≠ 0) (r : Nat) : dispatchLine r s = s :=
  if_neg h

theorem dispatchLine_due {s : State} (h : s.repeatCtr = 0) (r : Nat) :
    dispatchLine r s = rastEvent (BitVec.ofNat 16 r) (bandSlotAt s s.bandPtr.toNat) s :=
  if_pos h

section

variable {s : State} {ptr : BitVec 8} (hv : s.timing.visible s.vline = true)
  (hl : liveAt (s.timing.rline s.vline) s)

include hv hl

/-- On a line with a live rasterizer the band pointer and the repeat counter advance, and then the line is dispatched or
repeated (R185 step 3). -/
theorem chooseRaster_liveAt {rep : Half} (h : Advances (s.timing.rline s.vline) s ptr rep) :
    chooseRaster s = dispatchLine (s.timing.rline s.vline)
      { s with live := true, bandPtr := ptr, repeatCtr := rep } := by
  have hadvance := countRepeat_stepBand (s := { s with live := true }) h
  simp [chooseRaster, hv, goLive_of_liveAt hl, hadvance]

theorem chooseRaster_repeats {rep : Half} (h : Advances (s.timing.rline s.vline) s ptr rep) (hrep : rep ≠ 0) :
    chooseRaster s = { s with live := true, bandPtr := ptr, repeatCtr := rep } := by
  rw [chooseRaster_liveAt hv hl h, dispatchLine_repeat hrep]

theorem chooseRaster_dispatches (h : Advances (s.timing.rline s.vline) s ptr 0) (hb : s.rastBusy = false) :
    chooseRaster s = { s with
      live := true, bandPtr := ptr, repeatCtr := 0
      rastBusy := true, rastLine := BitVec.ofNat 16 (s.timing.rline s.vline), rastSlot := bandSlotAt s ptr.toNat
      rastFn := slotFnAt s (bandSlotAt s ptr.toNat).toNat
      ctxRange := 0x00000000#32, ctxMode := 0x00000001#32 } := by
  rw [chooseRaster_liveAt hv hl h, dispatchLine_due rfl, rastEvent_idle (by exact hb)]
  rfl

theorem chooseRaster_late (h : Advances (s.timing.rline s.vline) s ptr 0) (hb : s.rastBusy = true) :
    chooseRaster s = raiseFault .deadlineMiss (s.rastLine.setWidth 32)
      { s with live := true, bandPtr := ptr, repeatCtr := 0 } := by
  rw [chooseRaster_liveAt hv hl h, dispatchLine_due rfl, rastEvent_busy (by exact hb)]

end

/-- Settles O33: `EAV` ends the line, and then R185 decides by the live flag and by what the band pointer and the repeat
counter become. -/
theorem eavIntoAVisibleLine : Obligations.EavIntoAVisibleLine := by
  intro s hf hm hwithin nv hne hv r live boundary ptr rep hadv k
  have hnext : nextLine s = nv := nextLine_within hwithin
  have heav {u : State} (h : chooseRaster (endLine nv s) = u) : exec .eav s = .next u := by
    rw [exec_eav hf, eavEvent_visible hf hm (hnext ▸ hne), hnext, h]
  refine ⟨fun h => heav ?cleared, fun h hrep => heav ?repeated, fun h hrep hb => heav ?dispatched,
    fun h hrep hb => heav ?late⟩
  case cleared => exact chooseRaster_not_liveAt (s := endLine nv s) hv h
  case repeated => exact chooseRaster_repeats (s := endLine nv s) hv h hadv hrep
  case dispatched =>
    subst hrep
    exact chooseRaster_dispatches (s := endLine nv s) hv h hadv hb
  case late =>
    subst hrep
    exact chooseRaster_late (s := endLine nv s) hv h hadv hb

/-! ### Which causes an operation raises -/

/-- From `s` to `t` the fault registers are unchanged, or a fault of one of `causes` is entered. -/
def FaultsWith (causes : List Cause) (s t : State) : Prop :=
  (t.faulted = s.faulted ∧ t.fault = s.fault) ∨ (t.faulted = true ∧ t.fault ∈ causes.map Cause.code)

namespace FaultsWith

variable {causes : List Cause} {s t u : State}

theorem raise {c : Cause} (hc : c ∈ causes) (info : Word) (s : State) : FaultsWith causes s (raiseFault c info s) :=
  .inr ⟨rfl, List.mem_map_of_mem hc⟩

theorem trans (hst : FaultsWith causes s t) (htu : FaultsWith causes t u) : FaultsWith causes s u := by
  rcases htu with ⟨hfaulted, hfault⟩ | hraised
  · unfold FaultsWith
    rwa [hfaulted, hfault]
  · exact .inr hraised

theorem thenDo {f : State → State} (hst : FaultsWith causes s t) (hf : FaultsWith causes t (f t)) :
    FaultsWith causes s (Machine.thenDo t f) := by
  unfold Machine.thenDo
  split
  · exact hst
  · exact hst.trans hf

theorem progress (s : State) : FaultsWith causes s (Machine.progress s) :=
  .inl ⟨progress_faulted s, progress_fault s⟩

/-- A fault of a cause outside the list was there before. -/
theorem not_entered {c : Cause} (h : FaultsWith causes s t) (hs : s.faulted = false) (ht : t.faulted = true)
    (hc : c.code ∉ causes.map Cause.code) : t.fault ≠ c.code := by
  rcases h with ⟨hfaulted, _⟩ | ⟨_, hmem⟩
  · rw [hfaulted, hs] at ht
    cases ht
  · exact fun h => hc (h ▸ hmem)

end FaultsWith

/-- The causes that a bus operation raises: an illegal access or command, and those of `RAST_DONE` and `RAST_FAIL`. -/
def busCauses : List Cause := [.illegalOp, .badCtx, .cppRange, .rasterizerFault]

theorem issueCommand_faultsWith {perform : State → State} {s : State} (w : Word) (legal : Bool)
    (h : FaultsWith busCauses s (perform s)) : FaultsWith busCauses s (issueCommand w legal perform s) := by
  unfold issueCommand
  split
  case isTrue => exact .inl ⟨rfl, rfl⟩
  case isFalse =>
    cases legal with
    | true => exact h.thenDo (.progress _)
    | false => exact .raise (by decide) w s

theorem performCommand_faultsWith (i : Instr) (s : State) : FaultsWith busCauses s (performCommand i s) := by
  cases i with
  | new | stopSync | rastOpen | rastClose | syncVblank | videoOn | videoOff =>
    exact issueCommand_faultsWith _ _ (.inl ⟨rfl, rfl⟩)
  | cfgTiming =>
    refine issueCommand_faultsWith _ _ ?_
    split <;> exact .inl ⟨rfl, rfl⟩
  | bandsOpen n =>
    refine issueCommand_faultsWith _ _ ?_
    split <;> exact .inl ⟨rfl, rfl⟩
  | rastDone =>
    refine issueCommand_faultsWith _ _ ?_
    split
    · exact .raise (by decide) _ s
    · split
      · exact .raise (by decide) _ s
      · exact .inl ⟨commitContext_faulted s, commitContext_fault s⟩
  | rastFail => exact issueCommand_faultsWith _ _ (.raise (by decide) _ s)
  | _ => exact .inl ⟨rfl, rfl⟩

theorem writeStep_faultsWith (o : BitVec 13) (w : Width) (v : Word) (s : State) :
    FaultsWith busCauses s (writeStep o w v s) := by
  rcases writeStep_cases o w v s with ⟨_, he⟩ | ⟨_, he⟩ | ⟨_, _, he⟩ | ⟨r, _, _, _, he⟩ | ⟨k, _, _, _, he⟩ <;> rw [he]
  · exact .inl ⟨rfl, rfl⟩
  · exact .raise (by decide) _ s
  · cases hd : decodeCmd v with
    | ok i => rw [commandWrite_ok hd]; exact performCommand_faultsWith i s
    | error e => rw [commandWrite_error hd]; exact .raise (by decide) v s
  · exact .trans (.inl ⟨regWrite_faulted r v s, regWrite_fault r v s⟩) (.progress _)
  · exact .trans (.inl ⟨rfl, rfl⟩) (.progress _)

theorem readStep_faultsWith (o : BitVec 13) (w : Width) (s : State) : FaultsWith busCauses s (readStep o w s) := by
  rcases readStep_cases o w s with ⟨v, he⟩ | ⟨_, _, he⟩ <;> rw [he]
  · exact .inl ⟨rfl, rfl⟩
  · have hraise : FaultsWith busCauses s (raiseFault .illegalOp (accessInfo o) s) := .raise (by decide) _ s
    exact hraise.trans (.inl ⟨rfl, rfl⟩)

/-- What a step performs is a `TICK` or a bus operation, and the latter raises only the causes of one. -/
theorem tick_or_faultsWith_busCauses {x : Input} {i : Instr} (h : decodeInput x = some i) :
    i = .tick ∨ ∀ s, ∃ t, exec i s = .next t ∧ FaultsWith busCauses s t := by
  cases x with
  | tick => cases h; exact .inl rfl
  | reset => cases h
  | read o n => cases h; exact .inr fun s => ⟨_, rfl, readStep_faultsWith o n s⟩
  | write o n v =>
    refine .inr fun s => ?_
    simp only [decodeInput] at h
    split at h
    · split at h
      case h_1 j hj =>
        cases h
        exact ⟨_, exec_command (encodeCmd_of_decodeCmd hj), performCommand_faultsWith i s⟩
      case h_2 => cases h; exact ⟨_, rfl, writeStep_faultsWith _ _ _ s⟩
    · cases h; exact ⟨_, rfl, writeStep_faultsWith _ _ _ s⟩

/-- R185 raises no fault but the deadline miss of R186, and that only while a rasterization runs. -/
theorem chooseRaster_faultsWith {causes : List Cause} {s : State} (hmiss : s.rastBusy = true → .deadlineMiss ∈ causes) :
    FaultsWith causes s (chooseRaster s) := by
  rcases chooseRaster_cases s with ⟨_, he⟩ | ⟨_, _, he⟩ | ⟨_, _, he⟩ <;> rw [he]
  · exact .inl ⟨rfl, rfl⟩
  · exact .inl ⟨by simp, by simp⟩
  · generalize hu : countRepeat _ = u
    have hbusy : u.rastBusy = s.rastBusy := by simp [← hu]
    have hkeeps : FaultsWith causes s u := .inl ⟨by simp [← hu], by simp [← hu]⟩
    refine hkeeps.trans ?_
    rcases dispatchLine_cases (s.timing.rline s.vline) u with ⟨_, hd⟩ | ⟨_, hd⟩ <;> rw [hd]
    · rcases rastEvent_cases (BitVec.ofNat 16 (s.timing.rline s.vline)) (bandSlotAt u u.bandPtr.toNat) u with
        ⟨hb, hr⟩ | ⟨_, hr⟩ <;> rw [hr]
      · exact .raise (hmiss (hbusy ▸ hb)) _ u
      · exact .inl ⟨rfl, rfl⟩
    · exact .inl ⟨rfl, rfl⟩

theorem frameBoundary_faultsWith {causes : List Cause} (hoverflow : .vblankOverflow ∈ causes) (s : State) :
    FaultsWith causes s (frameBoundary s) := by
  rcases frameBoundary_cases s with ⟨_, he⟩ | ⟨_, _, he⟩ | ⟨_, _, he⟩ <;> rw [he]
  · exact .inl ⟨rfl, rfl⟩
  · exact .raise hoverflow 0 s
  · exact .inl ⟨rfl, rfl⟩

/-- With no rasterization in flight `EAV` raises no deadline miss (R183 to R186). -/
theorem eavEvent_faultsWith_of_idle {s : State} (hb : s.rastBusy = false) :
    FaultsWith [.threadMutex, .vblankOverflow] s (eavEvent s) := by
  rcases eavEvent_cases s with ⟨_, _, he⟩ | ⟨_, he⟩ <;> rw [he]
  · exact .raise (by decide) _ s
  · refine .thenDo (.trans (.inl ⟨rfl, rfl⟩) (frameBoundary_faultsWith (by decide) _)) (chooseRaster_faultsWith ?_)
    simp [hb]

/-! ### The deadline -/

/-- In a running state the timers run only with a valid descriptor (I2, I3 of R57). -/
theorem valid_of_timRun {s : State} (h : Running s) (hr : s.timRun = true) : s.timing.valid = true := by
  have hd : s.dstate ≠ .idle := by
    intro hidle
    obtain ⟨hstop, _⟩ := h.idle hidle
    rw [hr] at hstop
    cases hstop
  obtain ⟨_, _, hvalid⟩ := h.started hd
  exact hvalid

/-- Taking a step off the list touches nothing that the invariant is about. -/
theorem running_takeInput {s : State} (h : Running s) : Running (takeInput s) := { h with }

/-- A `TICK` that faults did so in its events: none of the later sub-steps raises a fault (R157). -/
theorem tickStep_eq_tickEvents_of_faulted {s : State} (hf : s.faulted = false) (h : (tickStep s).faulted = true) :
    s.timRun = true ∧ tickStep s = tickEvents s := by
  cases hr : s.timRun with
  | false =>
    rw [tickStep_stopped (.inr hr), hf] at h
    cases h
  | true =>
    rw [tickStep_running hf hr] at h ⊢
    cases hu : (tickEvents s).faulted with
    | true => exact ⟨rfl, tickHost_faulted hu _⟩
    | false =>
      rw [tickHost_running hu] at h
      cases hg : gateHeld s <;> simp [hg, hu] at h

/-- A deadline miss of `SAV` is that of a rasterization, unless a transfer still runs (R182 steps 2 and 3). -/
theorem savEvent_missed {s : State} (hf : s.faulted = false) (hd : s.dmaActive = false)
    (hfault : (savEvent s).faulted = true) (hcause : (savEvent s).fault = Cause.deadlineMiss.code) :
    s.rastBusy = true ∧ (savEvent s).faultInfo = s.rastLine.setWidth 32 := by
  rcases savEvent_cases s with ⟨_, he⟩ | ⟨_, hb, he⟩ | ⟨_, _, hmoving, _⟩ | ⟨_, _, _, he⟩
  · rw [he] at hcause
    simp [Cause.code] at hcause
  · exact ⟨hb, by rw [he]; rfl⟩
  · rw [hd] at hmoving
    cases hmoving
  · simp [he, hf] at hfault

/-- In a good state a `TICK` misses a deadline only by a rasterization that runs when `SAV` matches: at `M_SAV` no
transfer runs, and at `M_EAV` no rasterization does (R355, R187). -/
theorem tickStep_missed {s : State} (h : Running s) (hf : s.faulted = false) (hfault : (tickStep s).faulted = true)
    (hcause : (tickStep s).fault = Cause.deadlineMiss.code) :
    s.rastBusy = true ∧ s.hcount.toNat = s.timing.mSav ∧ s.timing.visible s.vline = true ∧
      (tickStep s).faultInfo = s.rastLine.setWidth 32 := by
  obtain ⟨hr, he⟩ := tickStep_eq_tickEvents_of_faulted hf hfault
  have hvalid := valid_of_timRun h hr
  rw [he] at hfault hcause ⊢
  cases hSav : savDue s with
  | true =>
    obtain ⟨_, hcount, hvisible⟩ := (savDue_iff s).1 hSav
    have hidle : s.dmaActive = false := by
      refine Bool.eq_false_iff.2 fun hd => ?_
      obtain ⟨hlate, _⟩ := h.beatWindow hd
      omega
    rw [tickEvents_sav hvalid hSav] at hfault hcause ⊢
    obtain ⟨hb, hinfo⟩ := savEvent_missed hf hidle hfault hcause
    exact ⟨hb, hcount, hvisible, hinfo⟩
  | false =>
    exfalso
    cases hEav : eavDue s with
    | true =>
      obtain ⟨_, hcount⟩ := (eavDue_iff s).1 hEav
      have hidle : s.rastBusy = false := by
        refine Bool.eq_false_iff.2 fun hb => ?_
        obtain ⟨_, hpix, hlast, _⟩ := Timing.valid_order hvalid
        rcases h.busyWindow hb with hearly | hlate <;> omega
      rw [tickEvents_eav hf hvalid hEav] at hfault hcause
      exact (eavEvent_faultsWith_of_idle hidle).not_entered hf hfault (by decide) hcause
    | false =>
      cases hBeat : beatDue s with
      | true => simp [tickEvents_beat hf hSav hEav hBeat, hf] at hfault
      | false => simp [tickEvents_none hSav hEav hBeat, hf] at hfault

/-- Settles O13: no bus operation and no reset raises cause 1, and of a `TICK` the match of `SAV` alone does. -/
theorem deadlineMissIsALateRasterization : Obligations.DeadlineMissIsALateRasterization := by
  intro s t hinv hstep hf hfault hcause
  have hf' : (takeInput s).faulted = false := hf
  rcases step_cases s with ⟨_, he⟩ | ⟨i, hi, he⟩ <;> rw [hstep] at he
  · cases he
    cases hfault
  · rcases tick_or_faultsWith_busCauses hi with rfl | hbus
    · cases he
      exact tickStep_missed (running_takeInput (hinv.running hf)) hf' hfault hcause
    · obtain ⟨u, hu, hraises⟩ := hbus (takeInput s)
      cases he.trans hu
      exact absurd hcause (hraises.not_entered hf' hfault (by decide))

end Sys2Proof.Machine

/-! PROOFS. The family of `43_mutex_and_video_gate.md`: which fault causes the machine can raise (R235), how a gate
operation holds the mutex and ends (R238), and where the video gate moves (R239). -/

namespace Sys2Proof.Machine

open Sys2Proof.Safety

/-! ### The causes that the sequencer raises -/

namespace FaultsWith

variable {causes causes' : List Cause} {s t : State}

theorem refl (s : State) : FaultsWith causes s s := .inl ⟨rfl, rfl⟩

theorem mono (h : FaultsWith causes s t) (hsub : causes ⊆ causes') : FaultsWith causes' s t :=
  h.imp_right fun ⟨hfaulted, hmem⟩ => ⟨hfaulted, List.map_subset Cause.code hsub hmem⟩

/-- A sub-step that is performed only under a condition. -/
theorem when {c : Prop} {inst : Decidable c} (h : FaultsWith causes s t) :
    FaultsWith causes s (if c then t else s) := by
  split
  · exact h
  · exact .refl s

/-- A code outside the list is not written. -/
theorem fault_ne {c : Cause} (h : FaultsWith causes s t) (hs : s.fault ≠ c.code)
    (hc : c.code ∉ causes.map Cause.code) : t.fault ≠ c.code := by
  rcases h with ⟨_, hfault⟩ | ⟨_, hmem⟩
  · rwa [hfault]
  · exact fun h => hc (h ▸ hmem)

end FaultsWith

/-- The causes that an event raises: a deadline missed, the mutex found held, the vblank counter at its end. -/
def sequencerCauses : List Cause := [.deadlineMiss, .threadMutex, .vblankOverflow]

theorem savEvent_faultsWith (s : State) : FaultsWith sequencerCauses s (savEvent s) := by
  rcases savEvent_cases s with ⟨_, he⟩ | ⟨_, _, he⟩ | ⟨_, _, _, he⟩ | ⟨_, _, _, he⟩ <;> rw [he]
  case inr.inr.inr => exact .inl ⟨by simp, by simp⟩
  all_goals exact .raise (by decide) _ s

theorem eavEvent_faultsWith (s : State) : FaultsWith sequencerCauses s (eavEvent s) := by
  rcases eavEvent_cases s with ⟨_, _, he⟩ | ⟨_, he⟩ <;> rw [he]
  · exact .raise (by decide) _ s
  · have hend : FaultsWith sequencerCauses s (endLine (nextLine s) s) := .inl ⟨rfl, rfl⟩
    exact (hend.trans (frameBoundary_faultsWith (by decide) _)).thenDo (chooseRaster_faultsWith fun _ => by decide)

theorem rastEvent_faultsWith (r : Half) (k : BitVec 8) (s : State) :
    FaultsWith sequencerCauses s (rastEvent r k s) := by
  rcases rastEvent_cases r k s with ⟨_, he⟩ | ⟨_, he⟩ <;> rw [he]
  · exact .raise (by decide) _ s
  · exact .inl ⟨rfl, rfl⟩

theorem dmaBeat_faultsWith (s : State) : FaultsWith sequencerCauses s (dmaBeat s) := .inl ⟨rfl, rfl⟩

theorem performEvent_faultsWith {causes : List Cause} {event : State → State} {s : State}
    (h : FaultsWith causes s (event s)) : FaultsWith causes s (performEvent event s) :=
  (FaultsWith.refl s).thenDo h

theorem tickEvents_faultsWith (s : State) : FaultsWith sequencerCauses s (tickEvents s) :=
  ((savEvent_faultsWith s).when.thenDo (eavEvent_faultsWith _).when).thenDo (dmaBeat_faultsWith _).when

/-- Sub-steps 4 to 6 of a `TICK` raise no fault (R157). -/
theorem tickHost_faultsWith {causes : List Cause} (held : Bool) (s : State) :
    FaultsWith causes s (tickHost held s) :=
  have gate (s : State) : FaultsWith causes s (gateCountdown s) := .inl ⟨gateCountdown_faulted s, gateCountdown_fault s⟩
  have count (s : State) : FaultsWith causes s (countTick s) := .inl ⟨rfl, rfl⟩
  (((FaultsWith.refl s).thenDo (gate s).when).thenDo (.progress _)).thenDo (count _)

theorem tickStep_faultsWith (s : State) : FaultsWith sequencerCauses s (tickStep s) := by
  unfold tickStep
  split
  · exact .refl s
  · exact (tickEvents_faultsWith s).trans (tickHost_faultsWith _ _)

/-- An operation raises a cause of the sequencer or of the bus, and no other. -/
theorem exec_faultsWith {i : Instr} {s t : State} (h : exec i s = .next t) :
    FaultsWith (sequencerCauses ++ busCauses) s t := by
  have sequencer {u : State} (hu : FaultsWith sequencerCauses s u) : FaultsWith (sequencerCauses ++ busCauses) s u :=
    hu.mono (List.subset_append_left _ _)
  have bus {u : State} (hu : FaultsWith busCauses s u) : FaultsWith (sequencerCauses ++ busCauses) s u :=
    hu.mono (List.subset_append_right _ _)
  cases i with
  | tick => cases h; exact sequencer (tickStep_faultsWith s)
  | sav => cases h; exact sequencer (performEvent_faultsWith (savEvent_faultsWith s))
  | eav => cases h; exact sequencer (performEvent_faultsWith (eavEvent_faultsWith s))
  | rast r k => cases h; exact sequencer (performEvent_faultsWith (rastEvent_faultsWith r k s))
  | dmabeat => cases h; exact sequencer (performEvent_faultsWith (dmaBeat_faultsWith s))
  | rd o w => cases h; exact bus (readStep_faultsWith o w s)
  | wr o w v => cases h; exact bus (writeStep_faultsWith o w v s)
  | _ =>
    rw [exec_eq_performCommand s rfl] at h
    cases h
    exact bus (performCommand_faultsWith _ s)

/-- Settles O12: the code of `isrMutex` is that of no cause of the sequencer or of the bus. -/
theorem noOperationRaisesIsrMutex : Obligations.NoOperationRaisesIsrMutex :=
  fun _ _ _ h hs => (exec_faultsWith h).fault_ne (c := .isrMutex) hs (by decide)

/-! ### The hold of the mutex -/

/-- A gate hold waits on nothing that `progress()` looks at (R276). -/
theorem progress_of_gateHold {s : State} {rem : Nat} {target : Bool} (h : s.hop = .gateHold rem target) :
    progress s = s := by
  simp [progress, h]

theorem gateCountdown_last {s : State} {target : Bool} (h : s.hop = .gateHold 1 target) :
    gateCountdown s = { s with videoEn := target, mtxOwner := .free, hop := .none, result := 0 } := by
  simp [gateCountdown, h, completeHop]

theorem gateCountdown_goes_on {s : State} {rem : Nat} {target : Bool} (h : s.hop = .gateHold rem target)
    (hrem : 2 ≤ rem) : gateCountdown s = { s with hop := .gateHold (rem - 1) target } := by
  have hmore : rem - 1 ≠ 0 := by omega
  simp [gateCountdown, h, hmore]

/-- Settles O41: with no event the `TICK` is the gate countdown and the count, for `progress()` finds either no host
operation or a gate hold. -/
theorem gateHoldsThenReleases : Obligations.GateHoldsThenReleases := by
  intro s rem target hf hr hhop hrem hnoSav hnoEav hnoBeat hcount
  have hevents : tickEvents s = s := tickEvents_none ((savDue_eq_false_iff s).2 hnoSav)
    ((eavDue_eq_false_iff s).2 hnoEav) ((beatDue_eq_false_iff s).2 hnoBeat)
  have hheld : gateHeld s = true := (gateHeld_iff s).2 ⟨rem, target, hhop⟩
  have counts : exec .tick s = .next (countTick (progress (gateCountdown s))) := by
    simpa [hheld] using (exec_tick_of_tickEvents hf hr hevents).2 hf
  refine ⟨fun hlast => ?releases, fun hmore => ?holds⟩
  case releases =>
    subst hlast
    rw [counts, gateCountdown_last hhop, progress_of_hop_none rfl]
    rfl
  case holds =>
    rw [counts, gateCountdown_goes_on hhop (by omega), progress_of_gateHold rfl]
    rfl

/-! ### Where the video gate moves -/

theorem issueCommand_videoEn {perform : State → State} {s : State} (w : Word) (legal : Bool)
    (h : (perform s).videoEn = s.videoEn) : (issueCommand w legal perform s).videoEn = s.videoEn := by
  rcases issueCommand_cases w legal perform s with ⟨_, he⟩ | ⟨_, _, he⟩ | ⟨_, _, _, he⟩ | ⟨_, _, _, he⟩ <;>
    simp [he, h]

/-- No command moves the video gate: `VIDEO_ON` and `VIDEO_OFF` only queue the wait (R236, R237). -/
@[simp] theorem performCommand_videoEn (i : Instr) (s : State) : (performCommand i s).videoEn = s.videoEn := by
  cases i with
  | new | stopSync | rastOpen | rastClose | syncVblank | videoOn | videoOff | rastFail =>
    exact issueCommand_videoEn _ _ rfl
  | cfgTiming | bandsOpen =>
    refine issueCommand_videoEn _ _ ?_
    split <;> rfl
  | rastDone =>
    refine issueCommand_videoEn _ _ ?_
    split
    · rfl
    · split
      · rfl
      · exact commitContext_videoEn s
  | _ => rfl

theorem readStep_videoEn (o : BitVec 13) (w : Width) (s : State) : (readStep o w s).videoEn = s.videoEn := by
  rcases readStep_cases o w s with ⟨v, he⟩ | ⟨_, _, he⟩ <;> simp [he]

theorem writeStep_videoEn (o : BitVec 13) (w : Width) (v : Word) (s : State) :
    (writeStep o w v s).videoEn = s.videoEn := by
  rcases writeStep_cases o w v s with ⟨_, he⟩ | ⟨_, he⟩ | ⟨_, _, he⟩ | ⟨r, _, _, _, he⟩ | ⟨k, _, _, _, he⟩ <;> rw [he]
  case inr.inr.inl =>
    cases hd : decodeCmd v with
    | ok i => rw [commandWrite_ok hd, performCommand_videoEn]
    | error e => rw [commandWrite_error hd, raiseFault_videoEn]
  all_goals simp

theorem performEvent_videoEn {event : State → State} {s : State} (h : (event s).videoEn = s.videoEn) :
    (performEvent event s).videoEn = s.videoEn := by
  unfold performEvent
  split
  · rfl
  · exact h

/-- Of all operations `TICK` alone moves the video gate. -/
theorem exec_tick_or_videoEn {i : Instr} {s t : State} (h : exec i s = .next t) :
    i = .tick ∨ t.videoEn = s.videoEn := by
  cases i with
  | tick => exact .inl rfl
  | sav => cases h; exact .inr (performEvent_videoEn (savEvent_videoEn s))
  | eav => cases h; exact .inr (performEvent_videoEn (eavEvent_videoEn s))
  | rast r k => cases h; exact .inr (performEvent_videoEn (rastEvent_videoEn r k s))
  | dmabeat => cases h; exact .inr (performEvent_videoEn (dmaBeat_videoEn s))
  | rd o w => cases h; exact .inr (readStep_videoEn o w s)
  | wr o w v => cases h; exact .inr (writeStep_videoEn o w v s)
  | _ =>
    rw [exec_eq_performCommand s rfl] at h
    cases h
    exact .inr (performCommand_videoEn _ s)

theorem tickEvents_videoEn (s : State) : (tickEvents s).videoEn = s.videoEn :=
  tickEvents_frame State.videoEn savEvent_videoEn eavEvent_videoEn dmaBeat_videoEn s

/-- Everything a `TICK` can do: nothing, or its events up to the one that faults, or all its sub-steps (R157). -/
theorem tickStep_cases (s : State) :
    tickStep s = s ∨
    ((tickEvents s).faulted = true ∧ tickStep s = tickEvents s) ∨
    (s.faulted = false ∧ s.timRun = true ∧ (tickEvents s).faulted = false ∧
      tickStep s = countTick (progress (if gateHeld s then gateCountdown (tickEvents s) else tickEvents s))) := by
  cases hf : s.faulted with
  | true => exact .inl (tickStep_stopped (.inl hf))
  | false =>
    cases hr : s.timRun with
    | false => exact .inl (tickStep_stopped (.inr hr))
    | true =>
      rw [tickStep_running hf hr]
      cases hu : (tickEvents s).faulted with
      | true => exact .inr (.inl ⟨rfl, tickHost_faulted hu _⟩)
      | false => exact .inr (.inr ⟨rfl, rfl, rfl, tickHost_running hu _⟩)

/-- A `TICK` that moves the video gate runs, raises no fault in its events, and finds the mutex held by a gate operation
(R157 sub-step 4, R238). -/
theorem tickStep_moves_videoEn {s : State} (h : (tickStep s).videoEn ≠ s.videoEn) :
    s.faulted = false ∧ s.timRun = true ∧ (tickEvents s).faulted = false ∧
      (∃ rem target, s.hop = .gateHold rem target) ∧
      tickStep s = countTick (progress (gateCountdown (tickEvents s))) := by
  rcases tickStep_cases s with he | ⟨_, he⟩ | ⟨hf, hr, hu, he⟩
  · exact absurd (by rw [he]) h
  · exact absurd (by rw [he, tickEvents_videoEn]) h
  · cases hg : gateHeld s with
    | false => exact absurd (by simp [he, hg, tickEvents_videoEn]) h
    | true => exact ⟨hf, hr, hu, (gateHeld_iff s).1 hg, by rw [he, hg, if_pos rfl]⟩

theorem frameBoundary_keeps_blank {s : State} (h : s.videoOut = 0) : (frameBoundary s).videoOut = 0 := by
  rcases frameBoundary_cases s with ⟨_, he⟩ | ⟨_, _, he⟩ | ⟨_, _, he⟩ <;> simp [he, h]

/-- While the mutex is held in vblank, the events of a `TICK` fault, or leave the port blanked on a blanking line: an
`EAV` into a visible line would find the mutex (R183 step 2). -/
theorem tickEvents_in_vblank {s : State} (h : Running s) (hf : s.faulted = false) (hr : s.timRun = true)
    (hm : s.mtxOwner = .thread) (hu : (tickEvents s).faulted = false) :
    inVblank (tickEvents s) ∧ (tickEvents s).videoOut = 0 := by
  obtain ⟨hdark, _⟩ := h.mutex hm
  obtain ⟨hidle, hblank⟩ := h.blanking hdark
  cases hEav : eavDue s with
  | true =>
    rw [tickEvents_eav hf (valid_of_timRun h hr) hEav] at hu ⊢
    have hnext : s.timing.visible (nextLine s) = false := by
      refine Bool.eq_false_iff.2 fun hv => ?_
      rw [eavEvent_mutexHeld hm hv] at hu
      cases hu
    rw [eavEvent_blanking hnext]
    exact ⟨by rw [inVblank, frameBoundary_timing, frameBoundary_vline]; exact hnext, frameBoundary_keeps_blank rfl⟩
  | false =>
    have noSav : savDue s = false := (savDue_eq_false_iff s).2 fun ⟨_, _, hv⟩ => by
      rw [inVblank, hv] at hdark
      cases hdark
    have noBeat : beatDue s = false := by simp [beatDue, hidle]
    rw [tickEvents_none noSav hEav noBeat]
    exact ⟨hdark, hblank⟩

/-- Settles O55: the gate moves only in the countdown of a `TICK`, and the invariant gives a gate hold the mutex and the
mutex vblank. -/
theorem videoGateMovesOnlyInVblank : Obligations.VideoGateMovesOnlyInVblank := by
  intro s t hinv hstep hnoReset hmoves
  rcases step_cases s with ⟨hreset, _⟩ | ⟨i, _, he⟩
  · exact absurd hreset hnoReset
  · rw [hstep] at he
    obtain rfl : i = .tick := (exec_tick_or_videoEn he.symm).resolve_right hmoves
    cases he
    obtain ⟨hf, hr, hu, ⟨rem, target, hhop⟩, htick⟩ := tickStep_moves_videoEn (s := takeInput s) hmoves
    have hrun : Running s := hinv.running hf
    obtain ⟨hm, _⟩ := hrun.gateMutex rem target hhop
    obtain ⟨hdark, _⟩ := hrun.mutex hm
    obtain ⟨hidle, hblank⟩ := hrun.blanking hdark
    obtain ⟨hdark', hblank'⟩ := tickEvents_in_vblank (running_takeInput hrun) hf hr hm hu
    refine ⟨hdark, ?_, hm, hidle, hblank, ?_⟩
    · rw [htick]; simpa [inVblank] using hdark'
    · rw [htick]; simpa using hblank'

end Sys2Proof.Machine

/-! PROOFS. The family of `44_raster_slot.md`: what `RAST_OPEN` and `RAST_CLOSE` do (R252, R253), and when the scope of
a rasterizer ends (R254 to R256). -/

namespace Sys2Proof.Machine

open Sys2Proof.Safety

/-! ### The two commands -/

/-- Settles O21: a legal `RAST_OPEN` finds no host operation and leaves none, so that its effect is all it does. -/
theorem rastOpenPublishesOneBand : Obligations.RastOpenPublishesOneBand := by
  intro s hf
  refine ⟨illegalCommandFaultsWithItsWord s .rastOpen _ hf rfl,
    fun ⟨hinit, hsync, hhop⟩ => congrArg Host.Outcome.next ?_⟩
  have hlegal : hostLegal [.syncGen] s = true := hostLegal_iff.2 ⟨hinit, by simp [hsync], hhop⟩
  unfold rastOpenCommand
  rw [hlegal]
  exact issueCommand_completes hf _ hf hhop

/-- A drain ends once no rasterization is in flight (R254, R276). -/
theorem progress_of_drain_idle {s : State} (h : s.hop = .drain) (hb : s.rastBusy = false) :
    progress s = { s with dstate := .syncGen, hop := .none, result := 0 } := by
  simp [progress, h, hb, completeHop]

/-- Where it is legal, `RAST_CLOSE` revokes the slots and queues the drain, which its own step may end (R253). -/
theorem exec_rastClose_legal {s : State} (hf : s.faulted = false) (hl : legalHere .rastClose s) :
    exec .rastClose s =
      .next (progress { s with tags := Vector.replicate 16 .empty, live := false, hop := .drain }) := by
  obtain ⟨hinit, hopen, hhop⟩ := hl
  have hlegal : hostLegal [.rasterLoaded] s = true := hostLegal_iff.2 ⟨hinit, by simp [hopen], hhop⟩
  refine congrArg Host.Outcome.next ?_
  unfold rastCloseCommand
  rw [hlegal, issueCommand_legal hf, thenDo_running]
  exact hf

/-- Settles O24: the drain that the command queues waits for `rast_busy` alone. -/
theorem rastCloseRevokesAndDrains : Obligations.RastCloseRevokesAndDrains := by
  intro s hf hl
  rw [exec_rastClose_legal hf hl]
  exact ⟨fun hb => congrArg Host.Outcome.next (progress_of_drain_idle rfl hb),
    fun hb => congrArg Host.Outcome.next (progress_of_drain_busy rfl hb)⟩

/-! ### The end of a scope -/

/-- The scope is open, or it has just ended: no rasterization in flight, no host operation, `RESULT` 0 (R254). -/
def OpenOrEnded (t : State) : Prop :=
  t.dstate = .rasterLoaded ∨ (t.dstate = .syncGen ∧ t.rastBusy = false ∧ t.hop = .none ∧ t.result = 0)

/-- Of all that `progress()` completes only the drain ends a scope, and it waits for the rasterizer. -/
theorem progress_openOrEnded {s : State} (hopen : s.dstate = .rasterLoaded) : OpenOrEnded (progress s) := by
  rcases progress_cases s with he | ⟨_, hb, he⟩ | ⟨_, _, _, he⟩ | ⟨_, _, _, he⟩ | ⟨_, _, _, he⟩ <;> rw [he]
  case inr.inl => exact .inr ⟨rfl, hb, rfl, rfl⟩
  all_goals exact .inl hopen

theorem issueCommand_openOrEnded {perform : State → State} {s : State} (w : Word) (legal : Bool)
    (hopen : s.dstate = .rasterLoaded) (hkeeps : (perform s).dstate = s.dstate) :
    OpenOrEnded (issueCommand w legal perform s) := by
  have hopen' : (perform s).dstate = .rasterLoaded := hkeeps.trans hopen
  rcases issueCommand_cases w legal perform s with ⟨_, he⟩ | ⟨_, _, he⟩ | ⟨_, _, _, he⟩ | ⟨_, _, _, he⟩ <;> rw [he]
  · exact .inl hopen
  · exact .inl hopen
  · exact .inl hopen'
  · exact progress_openOrEnded hopen'

/-- A command that is not legal moves no driver state: it is dropped, or it is a fault. -/
theorem performCommand_dstate_of_not_legal {i : Instr} {w : Word} (hw : encodeCmd i = some w) {s : State}
    (hno : ¬ legalHere i s) : (performCommand i s).dstate = s.dstate := by
  cases hf : s.faulted with
  | true => rw [performCommand_faulted hw hf]
  | false => rw [performCommand_illegal hw hf hno, raiseFault_dstate]

/-- Inside a scope the commands that write `dstate` themselves are not legal (R271). -/
theorem performCommand_openOrEnded (i : Instr) {s : State} (hinit : s.init = true) (hopen : s.dstate = .rasterLoaded) :
    OpenOrEnded (performCommand i s) := by
  cases i with
  | new | cfgTiming | stopSync | rastOpen | bandsOpen =>
    exact .inl ((performCommand_dstate_of_not_legal rfl (by simp [legalHere, hinit, hopen])).trans hopen)
  | rastClose | syncVblank | videoOn | videoOff | rastFail => exact issueCommand_openOrEnded _ _ hopen rfl
  | rastDone =>
    refine issueCommand_openOrEnded _ _ hopen ?_
    split
    · rfl
    · split
      · rfl
      · exact commitContext_dstate s
  | _ => exact .inl hopen

theorem readStep_dstate (o : BitVec 13) (w : Width) (s : State) : (readStep o w s).dstate = s.dstate := by
  rcases readStep_cases o w s with ⟨v, he⟩ | ⟨_, _, he⟩ <;> simp [he]

theorem writeStep_openOrEnded (o : BitVec 13) (w : Width) (v : Word) {s : State} (hinit : s.init = true)
    (hopen : s.dstate = .rasterLoaded) : OpenOrEnded (writeStep o w v s) := by
  rcases writeStep_cases o w v s with ⟨_, he⟩ | ⟨_, he⟩ | ⟨_, _, he⟩ | ⟨r, _, _, _, he⟩ | ⟨k, _, _, _, he⟩ <;> rw [he]
  · exact .inl hopen
  · exact .inl hopen
  · cases hd : decodeCmd v with
    | ok i => rw [commandWrite_ok hd]; exact performCommand_openOrEnded i hinit hopen
    | error e => rw [commandWrite_error hd]; exact .inl hopen
  · exact progress_openOrEnded ((regWrite_dstate r v s).trans hopen)
  · exact progress_openOrEnded hopen

theorem tickEvents_dstate (s : State) : (tickEvents s).dstate = s.dstate :=
  tickEvents_frame State.dstate savEvent_dstate eavEvent_dstate dmaBeat_dstate s

/-- The events of a `TICK` and the gate countdown leave the scope to its `progress()` (R157 sub-step 5). -/
theorem tickStep_openOrEnded {s : State} (hopen : s.dstate = .rasterLoaded) : OpenOrEnded (tickStep s) := by
  have hevents : (tickEvents s).dstate = .rasterLoaded := (tickEvents_dstate s).trans hopen
  rcases tickStep_cases s with he | ⟨_, he⟩ | ⟨_, _, _, he⟩ <;> rw [he]
  · exact .inl hopen
  · exact .inl hevents
  · have hgate : (if gateHeld s then gateCountdown (tickEvents s) else tickEvents s).dstate = .rasterLoaded := by
      split
      · exact (gateCountdown_dstate _).trans hevents
      · exact hevents
    exact progress_openOrEnded hgate

theorem performEvent_dstate {event : State → State} {s : State} (h : (event s).dstate = s.dstate) :
    (performEvent event s).dstate = s.dstate := by
  unfold performEvent
  split
  · rfl
  · exact h

/-- From inside a scope every operation leaves it open or ends it by the drain. -/
theorem exec_openOrEnded {i : Instr} {s t : State} (h : exec i s = .next t) (hinit : s.init = true)
    (hopen : s.dstate = .rasterLoaded) : OpenOrEnded t := by
  cases i with
  | tick => cases h; exact tickStep_openOrEnded hopen
  | sav => cases h; exact .inl ((performEvent_dstate (savEvent_dstate s)).trans hopen)
  | eav => cases h; exact .inl ((performEvent_dstate (eavEvent_dstate s)).trans hopen)
  | rast r k => cases h; exact .inl ((performEvent_dstate (rastEvent_dstate r k s)).trans hopen)
  | dmabeat => cases h; exact .inl ((performEvent_dstate (dmaBeat_dstate s)).trans hopen)
  | rd o w => cases h; exact .inl ((readStep_dstate o w s).trans hopen)
  | wr o w v => cases h; exact writeStep_openOrEnded o w v hinit hopen
  | _ =>
    rw [exec_eq_performCommand s rfl] at h
    cases h
    exact performCommand_openOrEnded _ hinit hopen

/-- Settles O25: the one way out of a scope is the end of the drain. -/
theorem scopeEndsOnlyAfterTheRasterizer : Obligations.ScopeEndsOnlyAfterTheRasterizer :=
  fun _ _ _ h hinit hopen hleft => (exec_openOrEnded h hinit hopen).resolve_left hleft

end Sys2Proof.Machine

/-! PROOFS. The family of `45_driver_handle.md`: the commands `NEW` and those that wait for vblank (R274, R275), what
`progress()` does (R276), and the tick in which a wait ends. -/

namespace Sys2Proof.Machine

open Sys2Proof.Safety

/-! ### `NEW` -/

/-- Settles O15: a legal `NEW` finds no host operation and leaves none; a second one is not legal. -/
theorem newCreatesTheDriver : Obligations.NewCreatesTheDriver := by
  intro s hf
  refine ⟨fun hinit hhop => congrArg Host.Outcome.next ?_,
    fun hinit => illegalCommandFaultsWithItsWord s .new _ hf rfl (by simp [legalHere, hinit])⟩
  have hlegal : (!s.init && s.hop == .none) = true := by simp [hinit, hhop]
  unfold newCommand
  rw [hlegal]
  exact issueCommand_completes hf _ hf hhop

/-! ### The commands that wait for vblank -/

/-- A wait that is queued outlasts its own step: its sample is the present count, which no boundary has passed yet. -/
theorem issueCommand_queues_wait {s : State} (hf : s.faulted = false) (w : Word) (next : WaitThen)
    (hl : s.init = true ∧ (s.dstate = .syncGen ∨ s.dstate = .rasterLoaded) ∧ s.hop = .none) :
    issueCommand w (hostLegal [.syncGen, .rasterLoaded] s) (fun s => { s with hop := .waitVbl s.vblCount next }) s =
      { s with hop := .waitVbl s.vblCount next } := by
  have hlegal : hostLegal [.syncGen, .rasterLoaded] s = true := hostLegal_iff.2 (by simpa using hl)
  rw [hlegal, issueCommand_legal hf, thenDo_running]
  · exact progress_of_waitVbl_le rfl (Nat.le_refl _)
  · exact hf

/-- Settles O26: the three commands differ in their word and in how the wait goes on. -/
theorem waitingCommandsSampleTheCounter : Obligations.WaitingCommandsSampleTheCounter :=
  fun _ hf => ⟨fun hl => congrArg Host.Outcome.next (issueCommand_queues_wait hf _ .done hl),
    fun hl => congrArg Host.Outcome.next (issueCommand_queues_wait hf _ .gateOn hl),
    fun hl => congrArg Host.Outcome.next (issueCommand_queues_wait hf _ .gateOff hl)⟩

/-! ### Where a wait ends -/

section

variable {s : State} {sample : Word}

theorem progress_of_waitVbl_done (h : s.hop = .waitVbl sample .done) (hlt : sample.toNat < s.vblCount.toNat) :
    progress s = { s with vblFlag := false, hop := .none, result := 0 } := by
  simp [progress, h, hlt, completeHop]

theorem progress_of_waitVbl_gateOn (h : s.hop = .waitVbl sample .gateOn) (hlt : sample.toNat < s.vblCount.toNat) :
    progress s = { s with vblFlag := false, mtxOwner := .thread, hop := .gateHold s.params.gateHold true } := by
  simp [progress, h, hlt, acquireGate]

theorem progress_of_waitVbl_gateOff (h : s.hop = .waitVbl sample .gateOff) (hlt : sample.toNat < s.vblCount.toNat) :
    progress s = { s with vblFlag := false, mtxOwner := .thread, hop := .gateHold s.params.gateHold false } := by
  simp [progress, h, hlt, acquireGate]

end

/-- Settles O27: one lemma for each case of R276. -/
theorem progressCompletesHostOperations : Obligations.ProgressCompletesHostOperations :=
  fun _ => ⟨progress_of_hop_none, progress_of_drain_busy, progress_of_drain_idle,
    fun _ _ => progress_of_waitVbl_le, fun _ => progress_of_waitVbl_done, fun _ => progress_of_waitVbl_gateOn,
    fun _ => progress_of_waitVbl_gateOff, fun _ _ => progress_of_gateHold⟩

/-! ### The tick of the frame boundary -/

/-- What `EAV` leaves on the last line of a frame: the end of the line and the frame boundary (R183, R184). -/
def crossFrame (s : State) : State :=
  { s with dmaActive := false, videoOut := 0, vline := 0
           vblCount := s.vblCount + 1, vblFlag := true, bandPtr := 0, repeatCtr := 0 }

/-- Frame line 0 is a blanking line, for V2 asks for a front porch (R151). -/
theorem Timing.visible_zero_of_valid {d : Timing} (h : d.valid = true) : d.visible 0 = false := by
  obtain ⟨_, ⟨_, _, _, hporch⟩, _⟩ := d.valid_iff.1 h
  have hpos : 0 < d.vFp.toNat := Nat.pos_of_ne_zero fun h0 => hporch (BitVec.eq_of_toNat_eq h0)
  have hvb : ¬ d.vb ≤ 0 := by unfold Timing.vb; omega
  exact decide_eq_false hvb

/-- Below its maximum the vblank counter does not wrap, so that a sample it had reached is now passed (R184). -/
theorem lt_vblCount_crossFrame {s : State} {sample : Word} (hmax : s.vblCount ≠ 0xFFFFFFFF#32)
    (hle : sample.toNat ≤ s.vblCount.toNat) : sample.toNat < (crossFrame s).vblCount.toNat := by
  have hcount : (crossFrame s).vblCount = s.vblCount + 1 := rfl
  rw [hcount]
  bv_omega

section

variable {s : State} (hf : s.faulted = false) (hvalid : s.timing.valid = true)
  (hlast : s.vline.toNat + 1 = s.timing.vTotal.toNat) (hmax : s.vblCount ≠ 0xFFFFFFFF#32)

include hf hvalid hlast hmax

theorem exec_eav_crossFrame : exec .eav s = .next (crossFrame s) := by
  have hzero : (if s.vline.toNat + 1 = s.timing.vTotal.toNat then 0 else s.vline + 1 : Half) = 0 := if_pos hlast
  have hblank := Timing.visible_zero_of_valid hvalid
  rw [← hzero] at hblank
  obtain ⟨_, counts, _⟩ := eavIntoBlanking s hf hblank
  exact counts hzero hmax

/-- A `TICK` that crosses the frame boundary while no gate hold counts: after the boundary come `progress()` and the
count (R157). -/
theorem exec_tick_crossFrame (hr : s.timRun = true) (hmask : s.evtMask = false)
    (hcount : s.hcount.toNat = s.timing.mEav) (hheld : gateHeld s = false) :
    exec .tick s = .next (countTick (progress (crossFrame s))) := by
  obtain ⟨u, heav, _, running⟩ := tickPerformsEav s hf hr hvalid hmask hcount
  obtain rfl : crossFrame s = u := Host.Outcome.next.inj ((exec_eav_crossFrame hf hvalid hlast hmax).symm.trans heav)
  simpa [hheld] using running hf

end

/-- Settles O40: at the boundary `EAV` counts past the sample, so that the `progress()` of the same `TICK` ends the
wait. -/
theorem waitEndsAtTheFrameBoundary : Obligations.WaitEndsAtTheFrameBoundary := by
  intro s sample hf hr hvalid hmask hcount hlast hmax hle boundary
  have passed := lt_vblCount_crossFrame hmax hle
  have crosses {next : WaitThen} (hhop : s.hop = .waitVbl sample next) :
      exec .tick s = .next (countTick (progress (crossFrame s))) :=
    exec_tick_crossFrame hf hvalid hlast hmax hr hmask hcount (by simp [gateHeld, hhop])
  refine ⟨fun hhop => ?done, fun hhop => ?gateOn, fun hhop => ?gateOff⟩
  case done => rw [crosses hhop, progress_of_waitVbl_done (s := crossFrame s) hhop passed]; rfl
  case gateOn => rw [crosses hhop, progress_of_waitVbl_gateOn (s := crossFrame s) hhop passed]; rfl
  case gateOff => rw [crosses hhop, progress_of_waitVbl_gateOff (s := crossFrame s) hhop passed]; rfl

end Sys2Proof.Machine

/-! PROOFS. The family of `47_band_scheduler.md`: the band list that `BANDS_OPEN` publishes (R291, R292), and the band
that a dispatch is for (R293, R295). -/

namespace Sys2Proof.Machine

open Sys2Proof.Safety

/-! ### `BANDS_OPEN` -/

theorem loadTags_succ (s : State) (n : Nat) :
    loadTags s (n + 1) = (loadTags s n).setIfInBounds (bandSlotAt s n).toNat .loaded := by
  simp [loadTags, List.range_succ, List.foldl_append]

/-- Loading keeps the tags that are Loaded and adds exactly the slots that the bands name (R291 step 2). -/
theorem loadTags_loaded_iff (s : State) (n : Nat) (k : Fin 16) :
    (loadTags s n)[k] = .loaded ↔ s.tags[k] = .loaded ∨ ∃ i, i < n ∧ (bandSlotAt s i).toNat = k.val := by
  induction n with
  | zero => simp [loadTags]
  | succ n ih =>
    have hnamed : (loadTags s (n + 1))[k] = .loaded ↔
        (loadTags s n)[k] = .loaded ∨ (bandSlotAt s n).toNat = k.val := by
      rw [loadTags_succ, Fin.getElem_fin, Vector.getElem_setIfInBounds]
      by_cases hk : (bandSlotAt s n).toNat = k.val <;> simp [hk]
    simp only [hnamed, ih, Nat.lt_succ_iff_lt_or_eq, or_and_right, exists_or, exists_eq_left, or_assoc]

/-- Where it is legal, `BANDS_OPEN` publishes the list or refuses it, and completes in its own step (R291). -/
theorem exec_bandsOpen_legal {s : State} {n : BitVec 8} (hf : s.faulted = false) (hl : legalHere (.bandsOpen n) s) :
    exec (.bandsOpen n) s = .next (if bandsWellFormed s n.toNat then
      { s with bandN := n, tags := loadTags s n.toNat, dstate := .rasterLoaded, result := 0 } else refuse 2 s) := by
  obtain ⟨hbands, hinit, hsync, hhop⟩ := hl
  have hlegal : (s.params.hasBands && hostLegal [.syncGen] s) = true := by
    simp [hbands, hostLegal_iff, hinit, hsync, hhop]
  refine congrArg Host.Outcome.next ?_
  unfold bandsOpenCommand
  rw [hlegal]
  refine issueCommand_completes hf _ ?_ ?_ <;> cases bandsWellFormed s n.toNat <;> simp [hf, hhop]

/-- Settles O22: a legal command finds no host operation and leaves none, and the tags it loads are those of
`loadTags`. -/
theorem bandsOpenPublishesOrRefuses : Obligations.BandsOpenPublishesOrRefuses := by
  intro s n hf
  refine ⟨illegalCommandFaultsWithItsWord s (.bandsOpen n) _ hf rfl, fun hl hwf => ?publishes, fun hl hbad => ?refuses⟩
  case publishes =>
    refine ⟨loadTags s n.toNat, ?_, loadTags_loaded_iff s n.toNat⟩
    rw [exec_bandsOpen_legal hf hl, if_pos hwf]
  case refuses =>
    rw [exec_bandsOpen_legal hf hl, hbad]
    rfl

/-! ### A well-formed list -/

/-- The clauses B1 to B6 (R292). -/
theorem bandsWellFormed_iff_clauses (s : State) (n : Nat) : bandsWellFormed s n = true ↔
    (1 ≤ n ∧ n ≤ 16) ∧
    (bandStart (bandRangeAt s 0)).toNat = 0 ∧
    (∀ i, i < n → (bandStart (bandRangeAt s i)).toNat < (bandEnd (bandRangeAt s i)).toNat) ∧
    (∀ i, i < n - 1 → (bandEnd (bandRangeAt s i)).toNat = (bandStart (bandRangeAt s (i + 1))).toNat) ∧
    (bandEnd (bandRangeAt s (n - 1))).toNat = s.timing.vVideo.toNat ∧
    (∀ i, i < n → (bandSlotAt s i).toNat < 16) := by
  rw [bandsWellFormed_iff, bandsCover_iff, bandsNonEmpty_iff]
  simp only [← BitVec.toNat_inj]
  constructor
  · rintro ⟨⟨count, first, joined, last, slots⟩, nonempty⟩
    exact ⟨count, first, nonempty, joined, last, slots⟩
  · rintro ⟨count, first, nonempty, joined, last, slots⟩
    exact ⟨⟨count, first, joined, last, slots⟩, nonempty⟩

/-- All that the clauses B1 to B6 read of a published list. -/
def bandList (s : State) : Vector Word 16 × Vector Word 16 × BitVec 8 × Timing :=
  (s.bandRange, s.bandSlot, s.bandN, s.timing)

theorem bandsWellFormed_congr {s t : State} (h : bandList t = bandList s) :
    bandsWellFormed t t.bandN.toNat = bandsWellFormed s s.bandN.toNat := by
  obtain ⟨hrange, hslot, hn, htiming⟩ : t.bandRange = s.bandRange ∧ t.bandSlot = s.bandSlot ∧ t.bandN = s.bandN ∧
      t.timing = s.timing := by simpa [bandList] using h
  rw [Bool.eq_iff_iff, bandsWellFormed_iff_clauses, bandsWellFormed_iff_clauses]
  simp only [bandRangeAt, bandSlotAt, hrange, hslot, hn, htiming]

/-! ### What a bus operation does around its effect -/

/-- Nothing that a bus operation does beside the effect of a command or of a register write moves `P`: a fault entry,
`progress()`, the value read, the bytes stored in a buffer (R90 to R92). -/
structure BusStable (P : State → Prop) : Prop where
  raises : ∀ c info s, P s → P (raiseFault c info s)
  progresses : ∀ s, P s → P (progress s)
  reads : ∀ v s, P s → P { s with rdata := v }
  stores : ∀ b k n v s, P s → P (storeBuf b k n v s)

namespace BusStable

variable {P : State → Prop} {s : State} (hP : BusStable P) (hs : P s)

include hP hs

theorem issueCommand (w : Word) {legal : Bool} {perform : State → State} (h : legal = true → P (perform s)) :
    P (issueCommand w legal perform s) := by
  rcases issueCommand_cases w legal perform s with ⟨_, he⟩ | ⟨_, _, he⟩ | ⟨_, hl, _, he⟩ | ⟨_, hl, _, he⟩ <;> rw [he]
  · exact hs
  · exact hP.raises _ _ _ hs
  · exact h hl
  · exact hP.progresses _ (h hl)

theorem performCommand_of_not_legal {i : Instr} {w : Word} (hw : encodeCmd i = some w) (hno : ¬ legalHere i s) :
    P (performCommand i s) := by
  cases hf : s.faulted with
  | true => rwa [performCommand_faulted hw hf]
  | false => rw [performCommand_illegal hw hf hno]; exact hP.raises _ _ _ hs

theorem readStep (o : BitVec 13) (w : Width) : P (readStep o w s) := by
  rcases readStep_cases o w s with ⟨v, he⟩ | ⟨_, _, he⟩ <;> rw [he]
  · exact hP.reads v s hs
  · exact hP.reads 0 _ (hP.raises _ _ s hs)

theorem writeStep (o : BitVec 13) (w : Width) (v : Word) (hcmd : ∀ i, P (performCommand i s))
    (hreg : ∀ r, regWritable r s = true → P (regWrite r v s)) : P (writeStep o w v s) := by
  rcases writeStep_cases o w v s with ⟨_, he⟩ | ⟨_, he⟩ | ⟨_, _, he⟩ | ⟨r, _, _, hr, he⟩ | ⟨k, _, _, _, he⟩ <;> rw [he]
  · exact hs
  · exact hP.raises _ _ _ hs
  · cases hd : decodeCmd v with
    | ok i => rw [commandWrite_ok hd]; exact hcmd i
    | error e => rw [commandWrite_error hd]; exact hP.raises _ _ _ hs
  · exact hP.progresses _ (hreg r hr)
  · exact hP.progresses _ (hP.stores _ _ _ _ _ hs)

end BusStable

/-! ### A published list stays while its scope is open -/

theorem bandList_busStable (l : Vector Word 16 × Vector Word 16 × BitVec 8 × Timing) :
    BusStable fun t => bandList t = l where
  raises _ _ _ h := h
  progresses s h := by simpa [bandList] using h
  reads _ _ h := h
  stores _ _ _ _ _ h := h

/-- The commands that would write the list are not legal inside a scope (R271). -/
theorem performCommand_bandList (i : Instr) {s : State} (hopen : s.dstate = .rasterLoaded) :
    bandList (performCommand i s) = bandList s := by
  have hP := bandList_busStable (bandList s)
  cases i with
  | cfgTiming | rastOpen | bandsOpen => exact hP.performCommand_of_not_legal rfl rfl (by simp [legalHere, hopen])
  | new | stopSync | rastClose | syncVblank | videoOn | videoOff | rastFail =>
    exact hP.issueCommand rfl _ fun _ => rfl
  | rastDone =>
    refine hP.issueCommand rfl _ fun _ => ?_
    split
    · rfl
    · split
      · rfl
      · simp [bandList]
  | _ => rfl

/-- Inside a scope no register of the list may be written (R358). -/
theorem regWrite_bandList {r : Reg} (v : Word) {s : State} (hopen : s.dstate = .rasterLoaded)
    (hw : regWritable r s = true) : bandList (regWrite r v s) = bandList s := by
  cases r with
  | bandRange i | bandSlot i => simp [regWritable, hopen] at hw
  | _ => rfl

theorem tickEvents_bandList (s : State) : bandList (tickEvents s) = bandList s :=
  tickEvents_frame bandList (fun s => by simp [bandList]) (fun s => by simp [bandList]) (fun _ => rfl) s

theorem tickHost_bandList (held : Bool) (s : State) : bandList (tickHost held s) = bandList s := by
  cases hf : s.faulted with
  | true => rw [tickHost_faulted hf]
  | false => rw [tickHost_running hf]; cases held <;> simp [bandList]

theorem tickStep_bandList (s : State) : bandList (tickStep s) = bandList s := by
  unfold tickStep
  split
  · rfl
  · rw [tickHost_bandList, tickEvents_bandList]

theorem performEvent_bandList {event : State → State} {s : State} (h : bandList (event s) = bandList s) :
    bandList (performEvent event s) = bandList s := by
  unfold performEvent
  split
  · rfl
  · exact h

/-- From inside a scope every operation keeps the published list, even one that ends the scope. -/
theorem exec_bandList {i : Instr} {s t : State} (h : exec i s = .next t) (hopen : s.dstate = .rasterLoaded) :
    bandList t = bandList s := by
  have hP := bandList_busStable (bandList s)
  cases i with
  | tick => cases h; exact tickStep_bandList s
  | sav => cases h; exact performEvent_bandList (by simp [bandList])
  | eav => cases h; exact performEvent_bandList (by simp [bandList])
  | rast r k => cases h; exact performEvent_bandList (by simp [bandList])
  | dmabeat => cases h; exact performEvent_bandList rfl
  | rd o w => cases h; exact hP.readStep rfl o w
  | wr o w v =>
    cases h
    exact hP.writeStep rfl o w v (fun i => performCommand_bandList i hopen) fun _ => regWrite_bandList v hopen
  | _ =>
    rw [exec_eq_performCommand s rfl] at h
    cases h
    exact performCommand_bandList _ hopen

/-- Settles O23: the clauses are those of `bandsWellFormed`, and they read nothing that an operation writes inside a
scope. -/
theorem bandListWellFormedness : Obligations.BandListWellFormedness :=
  ⟨bandsWellFormed_iff_clauses, fun _ _ _ h hopen _ hwf => (bandsWellFormed_congr (exec_bandList h hopen)).trans hwf⟩


/-! ### The band that covers a line -/

/-- Visible line `r` is a line of band `i`. -/
def Covers (s : State) (i r : Nat) : Prop :=
  (bandStart (bandRangeAt s i)).toNat ≤ r ∧ r < (bandEnd (bandRangeAt s i)).toNat

section

variable {s : State} {n : Nat} (hwf : bandsWellFormed s n = true)

include hwf

theorem covers_first : Covers s 0 0 := by
  obtain ⟨⟨hn, _⟩, first, nonempty, _⟩ := (bandsWellFormed_iff_clauses s n).1 hwf
  have hzero := nonempty 0 hn
  exact ⟨by omega, by omega⟩

/-- The line at which a band ends is the first of the next band (B3, B4). -/
theorem covers_next {i : Nat} (hi : i + 1 < n) : Covers s (i + 1) (bandEnd (bandRangeAt s i)).toNat := by
  obtain ⟨_, _, nonempty, joined, _⟩ := (bandsWellFormed_iff_clauses s n).1 hwf
  have hjoin := joined i (by omega)
  have hline := nonempty (i + 1) hi
  exact ⟨by omega, by omega⟩

/-- The line after one of a band is of the same band, unless the next band begins there: the last band ends with the
active region (B5). -/
theorem covers_same {i r : Nat} (hi : i < n) (hc : Covers s i r) (hr : r + 1 < s.timing.vVideo.toNat)
    (hno : ¬ (i + 1 < n ∧ r + 1 = (bandEnd (bandRangeAt s i)).toNat)) : Covers s i (r + 1) := by
  obtain ⟨_, _, _, _, last, _⟩ := (bandsWellFormed_iff_clauses s n).1 hwf
  obtain ⟨hstart, hend⟩ := hc
  refine ⟨by omega, Nat.lt_of_le_of_ne hend fun h => ?_⟩
  have hlast : ¬ i + 1 < n := fun hmore => hno ⟨hmore, h⟩
  obtain rfl : i = n - 1 := by omega
  omega

end

/-- At visible line 0, where the frame boundary has reset the band pointer, it stays with band 0: that band has a
line (R184, R293). -/
theorem covers_of_advances_first {s : State} {ptr : BitVec 8} {rep : Half}
    (hwf : bandsWellFormed s s.bandN.toNat = true) (hptr : s.bandPtr = 0) (hadv : Advances 0 s ptr rep) :
    ptr.toNat < s.bandN.toNat ∧ Covers s ptr.toNat 0 := by
  obtain ⟨⟨hn, _⟩, _⟩ := (bandsWellFormed_iff_clauses _ _).1 hwf
  have hfirst := covers_first hwf
  have hzero : s.bandPtr.toNat = 0 := by simp [hptr]
  rcases hadv with ⟨⟨_, hend⟩, _⟩ | ⟨_, rfl, _⟩
  · obtain ⟨_, hsome⟩ := hfirst
    rw [hzero] at hend
    omega
  · rw [hzero]
    exact ⟨hn, hfirst⟩

/-- From one visible line to the next the band pointer moves on where its band ends, and so stays the band of the line
(R185 step 3a, R293). -/
theorem covers_of_advances_next {s : State} {ptr : BitVec 8} {rep : Half} {r : Nat}
    (hwf : bandsWellFormed s s.bandN.toNat = true) (hptr : s.bandPtr.toNat < s.bandN.toNat)
    (hc : Covers s s.bandPtr.toNat r) (hr : r + 1 < s.timing.vVideo.toNat) (hadv : Advances (r + 1) s ptr rep) :
    ptr.toNat < s.bandN.toNat ∧ Covers s ptr.toNat (r + 1) := by
  rcases hadv with ⟨⟨hmore, hend⟩, rfl, _⟩ | ⟨hno, rfl, _⟩
  · have hmoved : (s.bandPtr + 1).toNat = s.bandPtr.toNat + 1 := by bv_omega
    rw [hmoved, hend]
    exact ⟨hmore, covers_next hwf hmore⟩
  · exact ⟨hptr, covers_same hwf hptr hc hr hno⟩

/-- Inside a scope, under a descriptor with a visible line, the published list is well-formed (I11 of R57). -/
theorem bandsWellFormed_of_running {s : State} (h : Running s) (hopen : s.dstate = .rasterLoaded)
    (hvideo : s.timing.vVideo ≠ 0) : bandsWellFormed s s.bandN.toNat = true := by
  obtain ⟨hcover, hempty⟩ := h.bandList hopen
  exact bandsWellFormed_of_visible hcover hempty hvideo

/-- Within the frame the next line is the one after this (R183 step 1). -/
theorem nextLine_toNat {s : State} (hne : nextLine s ≠ 0) :
    s.vline.toNat + 1 ≠ s.timing.vTotal.toNat ∧ (nextLine s).toNat = s.vline.toNat + 1 := by
  have hin : s.vline.toNat + 1 ≠ s.timing.vTotal.toNat := fun h => hne (if_pos h)
  refine ⟨hin, ?_⟩
  rw [nextLine_within hin] at hne ⊢
  bv_omega

/-- The band pointer that R185 step 3a leaves for the line now reached is the band of that line (R293). -/
theorem covers_of_advances {s : State} {ptr : BitVec 8} {rep : Half} (h : Running s) (hr : s.timRun = true)
    (hne : nextLine s ≠ 0) (hv : s.timing.visible (nextLine s) = true)
    (hl : liveAt (s.timing.rline (nextLine s)) s) (hadv : Advances (s.timing.rline (nextLine s)) s ptr rep) :
    ptr.toNat < s.bandN.toNat ∧ Covers s ptr.toNat (s.timing.rline (nextLine s)) := by
  have hopen : s.dstate = .rasterLoaded := hl.elim (fun hlive => (h.liveScope hlive).1) fun ⟨_, hd, _⟩ => hd
  obtain ⟨_, _, _, _, _, _, hframe⟩ := Timing.valid_order (valid_of_timRun h hr)
  obtain ⟨_, hpos⟩ := h.position hr
  obtain ⟨hin, hnext⟩ := nextLine_toNat hne
  have hshown : s.timing.vb ≤ s.vline.toNat + 1 := by simpa [Timing.visible, hnext] using hv
  have hrline : s.timing.rline (nextLine s) = s.vline.toNat + 1 - s.timing.vb := by rw [Timing.rline, hnext]
  have hlast : s.timing.rline (nextLine s) < s.timing.vVideo.toNat := by omega
  have hwf := bandsWellFormed_of_running h hopen fun h0 => by simp [h0] at hlast
  cases hvis : s.timing.visible s.vline with
  | false =>
    have hdark : s.vline.toNat < s.timing.vb := by simpa [Timing.visible] using hvis
    have hzero : s.timing.rline (nextLine s) = 0 := by omega
    obtain ⟨hptr, _⟩ := h.vblankPointers hr hvis
    rw [hzero] at hadv ⊢
    exact covers_of_advances_first hwf hptr hadv
  | true =>
    have hlit : s.timing.vb ≤ s.vline.toNat := by simpa [Timing.visible] using hvis
    have hsucc : s.timing.rline (nextLine s) = s.timing.rline s.vline + 1 := by rw [hrline, Timing.rline]; omega
    have hlive : s.live = true := hl.resolve_right fun ⟨h0, _⟩ => by omega
    obtain ⟨hptr, hc⟩ := h.bandPointer hlive hvis
    rw [hsucc] at hadv hlast ⊢
    exact covers_of_advances_next hwf hptr hc hlast hadv

/-! ### A dispatch -/

/-- What a dispatch leaves (R186, R295): `rast_line` is the visible number of the line reached, `rast_slot` the slot of
the band that covers it, `rast_fn` the handle of that slot. -/
def Dispatched (t : State) : Prop :=
  t.timing.visible t.vline = true ∧ t.rastLine.toNat = t.timing.rline t.vline ∧
  ∃ i, i < t.bandN.toNat ∧ Covers t i t.rastLine.toNat ∧
    t.rastSlot = bandSlotAt t i ∧ t.rastFn = slotFnAt t (bandSlotAt t i).toNat

theorem exists_advances (r : Nat) (s : State) : ∃ ptr rep, Advances r s ptr rep := by
  by_cases h : atBoundary r s
  · exact ⟨_, _, .inl ⟨h, rfl, rfl⟩⟩
  · exact ⟨_, _, .inr ⟨h, rfl, rfl⟩⟩

/-- R185 dispatches only on a visible line with a live rasterizer, and when the repeat counter has run down. -/
theorem advances_of_chooseRaster_busy {s : State} (hb : s.rastBusy = false) (hd : (chooseRaster s).rastBusy = true) :
    s.timing.visible s.vline = true ∧ liveAt (s.timing.rline s.vline) s ∧
      ∃ ptr, Advances (s.timing.rline s.vline) s ptr 0 := by
  cases hv : s.timing.visible s.vline with
  | false => simp [chooseRaster_blanking hv, hb] at hd
  | true =>
    by_cases hl : liveAt (s.timing.rline s.vline) s
    · obtain ⟨ptr, rep, hadv⟩ := exists_advances (s.timing.rline s.vline) s
      by_cases hrep : rep = 0
      · exact ⟨rfl, hl, ptr, hrep ▸ hadv⟩
      · simp [chooseRaster_repeats hv hl hadv hrep, hb] at hd
    · simp [chooseRaster_not_liveAt hv hl, hb] at hd

/-- A visible line number fits the 16 bits of `rast_line`. -/
theorem toNat_ofNat_rline (d : Timing) (v : Half) : (BitVec.ofNat 16 (d.rline v)).toNat = d.rline v := by
  have hlt : d.rline v < 2 ^ 16 := Nat.lt_of_le_of_lt (Nat.sub_le _ _) v.isLt
  rw [BitVec.toNat_ofNat, Nat.mod_eq_of_lt hlt]

/-- An `EAV` that dispatches moves within the frame to a visible line, with the mutex free (R183, R184). -/
theorem eavEvent_dispatches {s : State} (h : Running s) (hf : s.faulted = false) (hr : s.timRun = true)
    (hb : s.rastBusy = false) (hd : (eavEvent s).rastBusy = true) : Dispatched (eavEvent s) := by
  cases hv : s.timing.visible (nextLine s) with
  | false => simp [eavEvent_blanking hv, endLine, hb] at hd
  | true =>
    have hne : nextLine s ≠ 0 := fun h0 => by
      rw [h0, Timing.visible_zero_of_valid (valid_of_timRun h hr)] at hv
      cases hv
    have hfree : s.mtxOwner = .free := by
      cases hm : s.mtxOwner with
      | free => rfl
      | thread => simp [eavEvent_mutexHeld hm hv, hb] at hd
    rw [eavEvent_visible hf hfree hne] at hd ⊢
    have hb' : (endLine (nextLine s) s).rastBusy = false := hb
    obtain ⟨hv', hl, ptr, hadv⟩ := advances_of_chooseRaster_busy hb' hd
    obtain ⟨hptr, hcovers⟩ := covers_of_advances h hr hne hv hl hadv
    rw [chooseRaster_dispatches hv' hl hadv hb']
    have hline := toNat_ofNat_rline s.timing (nextLine s)
    exact ⟨hv, hline, ptr.toNat, hptr, hline.symm ▸ hcovers, rfl, rfl⟩

/-- Of the events of a `TICK` only `EAV` dispatches (R157). -/
theorem tickEvents_dispatches {s : State} (h : Running s) (hf : s.faulted = false) (hr : s.timRun = true)
    (hb : s.rastBusy = false) (hd : (tickEvents s).rastBusy = true) : Dispatched (tickEvents s) := by
  have hvalid := valid_of_timRun h hr
  cases hEav : eavDue s with
  | true =>
    rw [tickEvents_eav hf hvalid hEav] at hd ⊢
    exact eavEvent_dispatches h hf hr hb hd
  | false =>
    exfalso
    cases hSav : savDue s with
    | true => simp [tickEvents_sav hvalid hSav, hb] at hd
    | false =>
      cases hBeat : beatDue s with
      | true => simp [tickEvents_beat hf hSav hEav hBeat, hb] at hd
      | false => simp [tickEvents_none hSav hEav hBeat, hb] at hd

theorem tickHost_rastBusy (held : Bool) (s : State) : (tickHost held s).rastBusy = s.rastBusy := by
  cases hf : s.faulted with
  | true => rw [tickHost_faulted hf]
  | false => rw [tickHost_running hf]; cases held <;> simp

/-- The later sub-steps of a `TICK` touch nothing of a dispatch. -/
theorem tickHost_dispatched {s : State} (held : Bool) (h : Dispatched s) : Dispatched (tickHost held s) := by
  cases hf : s.faulted with
  | true => rwa [tickHost_faulted hf]
  | false =>
    rw [tickHost_running hf]
    cases held <;> simpa [Dispatched, Covers, bandRangeAt, bandSlotAt, slotFnAt] using h

theorem tickStep_dispatches {s : State} (hrun : s.faulted = false → Running s) (hb : s.rastBusy = false)
    (hd : (tickStep s).rastBusy = true) : Dispatched (tickStep s) := by
  have stopped (h : s.faulted = true ∨ s.timRun = false) : False := by
    rw [tickStep_stopped h, hb] at hd
    cases hd
  have hf : s.faulted = false := Bool.eq_false_iff.2 fun h => stopped (.inl h)
  have hr : s.timRun = true := eq_true_of_ne_false fun h => stopped (.inr h)
  rw [tickStep_running hf hr] at hd ⊢
  rw [tickHost_rastBusy] at hd
  exact tickHost_dispatched _ (tickEvents_dispatches (hrun hf) hf hr hb hd)

/-! ### No bus operation dispatches -/

theorem idle_busStable : BusStable fun t => t.rastBusy = false where
  raises _ _ _ h := h
  progresses s h := (progress_rastBusy s).trans h
  reads _ _ h := h
  stores _ _ _ _ _ h := h

theorem performCommand_idle (i : Instr) {s : State} (hb : s.rastBusy = false) :
    (performCommand i s).rastBusy = false := by
  cases i with
  | new | stopSync | rastOpen | rastClose | syncVblank | videoOn | videoOff =>
    exact idle_busStable.issueCommand hb _ fun _ => hb
  | cfgTiming =>
    refine idle_busStable.issueCommand hb _ fun _ => ?_
    split
    · rfl
    · exact hb
  | bandsOpen n =>
    refine idle_busStable.issueCommand hb _ fun _ => ?_
    split <;> exact hb
  | rastDone | rastFail => exact idle_busStable.performCommand_of_not_legal hb rfl (by simp [legalHere, hb])
  | _ => exact hb

theorem writeStep_idle (o : BitVec 13) (w : Width) (v : Word) {s : State} (hb : s.rastBusy = false) :
    (writeStep o w v s).rastBusy = false :=
  idle_busStable.writeStep hb o w v (fun i => performCommand_idle i hb) fun r _ => (regWrite_rastBusy r v s).trans hb

/-- What a step performs is a `TICK` or a bus operation, and the latter dispatches nothing. -/
theorem tick_or_idle {x : Input} {i : Instr} (h : decodeInput x = some i) {s t : State} (he : exec i s = .next t)
    (hb : s.rastBusy = false) : i = .tick ∨ t.rastBusy = false := by
  cases x with
  | tick => cases h; exact .inl rfl
  | reset => cases h
  | read o n => cases h; cases he; exact .inr (idle_busStable.readStep hb o n)
  | write o n v =>
    right
    simp only [decodeInput] at h
    split at h
    · split at h
      case h_1 j hj =>
        cases h
        rw [exec_command (encodeCmd_of_decodeCmd hj)] at he
        cases he
        exact performCommand_idle _ hb
      case h_2 => cases h; cases he; exact writeStep_idle _ _ _ hb
    · cases h; cases he; exact writeStep_idle _ _ _ hb

/-- Settles O56: the step is a `TICK` whose `EAV` dispatches, and the invariant holds the band pointer to the band of
the line shown. -/
theorem dispatchSelectsTheCoveringBand : Obligations.DispatchSelectsTheCoveringBand := by
  intro s t hinv hstep hb hd
  have dispatched : Dispatched t := by
    rcases step_cases s with ⟨_, he⟩ | ⟨i, hi, he⟩ <;> rw [hstep] at he
    · cases he
      cases hd
    · obtain rfl : i = .tick := (tick_or_idle hi he.symm hb).resolve_right (by simp [hd])
      cases he
      exact tickStep_dispatches (fun hf => running_takeInput (hinv.running hf)) hb hd
  obtain ⟨hv, hline, i, hi, ⟨hstart, hend⟩, hslot, hfn⟩ := dispatched
  exact ⟨hv, hline, i, hi, hstart, hend, hslot, hfn⟩

end Sys2Proof.Machine

/-! PROOFS. The family of `60_exceptions.md`: the codes of the fault causes (R301), what fault entry does (R303), and
that a faulted machine is absorbing until `Reset` (R305). -/

namespace Sys2Proof.Machine

/-! ### Fault entry -/

@[simp] theorem faultPin_raiseFault (c : Cause) (info : Word) (s : State) : faultPin (raiseFault c info s) = true := rfl

/-- Fault entry blanks the port whether the video gate is open or not (R303, R239). -/
@[simp] theorem videoPins_raiseFault (c : Cause) (info : Word) (s : State) :
    videoPins (raiseFault c info s) = 0x00#8 := by
  unfold videoPins
  split
  · exact raiseFault_videoOut c info s
  · rfl

/-- Settles O10: each row of the table of R301. -/
theorem faultCodesAreThoseOfTheTable : Obligations.FaultCodesAreThoseOfTheTable :=
  ⟨rfl, rfl, rfl, rfl, rfl, rfl, rfl, rfl⟩

/-- Settles O9: what fault entry writes is its definition; it leaves the machine faulted, so no later sub-step is
performed. -/
theorem faultEntryLatchesAndBlanks : Obligations.FaultEntryLatchesAndBlanks := fun c info s =>
  ⟨rfl, faultPin_raiseFault c info s, videoPins_raiseFault c info s,
    thenDo_faulted (raiseFault_faulted c info s)⟩

/-! ### The faulted machine -/

section

variable {s : State} (hf : s.faulted = true)

include hf

theorem performEvent_faulted (event : State → State) : performEvent event s = s := by
  simp [performEvent, hf]

/-- A read by a faulted VTC answers as usual, and an illegal one records nothing (R305). -/
theorem readStep_faulted (o : BitVec 13) (w : Width) : ∃ v, readStep o w s = { s with rdata := v } := by
  rcases readStep_cases o w s with hread | ⟨hrunning, _⟩
  · exact hread
  · simp [hf] at hrunning

/-- Each kind of operation but a read is dropped: a `TICK`, an event, a write and a command (R305). -/
theorem exec_faulted {i : Instr} (hi : ∀ o w, i ≠ .rd o w) : exec i s = .next s := by
  cases i with
  | tick => exact congrArg Host.Outcome.next (tickStep_stopped (.inl hf))
  | sav | eav | rast | dmabeat => exact congrArg Host.Outcome.next (performEvent_faulted hf _)
  | rd o w => exact absurd rfl (hi o w)
  | wr o w v => exact congrArg Host.Outcome.next (writeStep_faulted hf o w v)
  | _ => rw [exec_command rfl, performCommand_faulted rfl hf]

theorem exec_rd_faulted (o : BitVec 13) (w : Width) : ∃ v, exec (.rd o w) s = .next { s with rdata := v } := by
  obtain ⟨v, hread⟩ := readStep_faulted hf o w
  exact ⟨v, congrArg Host.Outcome.next hread⟩

/-- Whatever the operation, a faulted machine changes at most the value read. -/
theorem exec_faulted_rdata (i : Instr) : ∃ v, exec i s = .next { s with rdata := v } := by
  by_cases hi : ∃ o w, i = .rd o w
  · obtain ⟨o, w, rfl⟩ := hi
    exact exec_rd_faulted hf o w
  · exact ⟨s.rdata, exec_faulted hf fun o w h => hi ⟨o, w, h⟩⟩

/-- A step that is not the reset performs an operation, so a faulted machine only takes its input. -/
theorem step_faulted {x : Input} {rest : List Input} (hs : s.sched = x :: rest) (hx : x ≠ .reset) :
    ∃ v, step s = .next { s with rdata := v, sched := rest, stepNo := s.stepNo + 1 } := by
  obtain ⟨i, hi⟩ := Option.ne_none_iff_exists'.1 (mt decodeInput_eq_none.1 hx)
  obtain ⟨v, hexec⟩ := exec_faulted_rdata ((takeInput_faulted s).trans hf) i
  exact ⟨v, by rw [step_of_decodeInput ((nextInput_of_cons hs).symm ▸ hi), hexec, takeInput_of_cons hs]⟩

end

/-- Settles O11: a read, any other operation, and a step, each from a faulted state. -/
theorem faultedMachineIsAbsorbing : Obligations.FaultedMachineIsAbsorbing := fun _ hf =>
  ⟨fun _ => exec_faulted hf, exec_rd_faulted hf, fun _ _ => step_faulted hf⟩

end Sys2Proof.Machine

/-! PROOFS. What stands across the families: the canonical form of the memory (log entry 3), the two errors of the decoder
of command words (R124) on the samples of the test vectors, and the step that runs a placed word (log entry 1). -/

namespace Sys2Proof

/-! ### Words that do not decode -/

/-- A word whose `op` is not in R122 (R124). -/
theorem decodeCmd_reservedOpcode {w : Word} (hbands : opField w ≠ 0x05#8)
    (hrow : opcodeMap.lookup (opField w) = none) : decodeCmd w = .error (.reservedOpcode (opField w)) := by
  simp [decodeCmd, hbands, hrow]

/-- A plain command's `op` with a non-zero argument (R124). -/
theorem decodeCmd_reservedArgument {w : Word} {i : Instr} (hbands : opField w ≠ 0x05#8)
    (hrow : opcodeMap.lookup (opField w) = some i) (harg : argField w ≠ 0#24) :
    decodeCmd w = .error (.reservedArgument (opField w) (argField w)) := by
  simp [decodeCmd, hbands, hrow, harg]

/-- Settles O3: four of the words are those of the encoder, and the other two each meet one clause of R124. -/
theorem sampleCommandWordsDecode : Obligations.SampleCommandWordsDecode :=
  ⟨decodeCmd_of_encodeCmd rfl, decodeCmd_bandsOpen 2, decodeCmd_bandsOpen 255, decodeCmd_of_encodeCmd rfl,
    decodeCmd_reservedArgument (i := .new) (by decide) (by decide) (by decide),
    decodeCmd_reservedOpcode (by decide) (by decide)⟩

/-! ### A table word -/

/-- A table word decodes as the command word of its low bits. -/
theorem decodeCmd_of_decodeTableWord {nbits w : Nat} {i : Instr} (h : decodeTableWord nbits w = some i) :
    decodeCmd (BitVec.ofNat 32 (w % 2 ^ nbits)) = .ok i := by
  unfold decodeTableWord at h
  split at h
  case isTrue => cases h
  case isFalse =>
    split at h
    case h_1 j hj => cases h; exact hj
    case h_2 => cases h

end Sys2Proof

namespace Sys2Proof.Machine

/-! ### The step after a word is placed -/

/-- The input that a placed word is taken as. -/
theorem nextInput_withFetchWord (s : State) (nbits w : Nat) :
    nextInput (s.withFetchWord nbits w) = .write 0#13 .word (BitVec.ofNat 32 (w % 2 ^ nbits)) := rfl

/-- Taking a placed word off the list leaves the state it was placed in, with the step counted. -/
theorem takeInput_withFetchWord (s : State) (nbits w : Nat) :
    takeInput (s.withFetchWord nbits w) = { s with stepNo := s.stepNo + 1 } := rfl

/-- A placed word that decodes is a write of its command's word to `CMD`, which is the command (R129, R131). -/
theorem decodeInput_withFetchWord (s : State) {nbits w : Nat} {i : Instr} (h : decodeTableWord nbits w = some i) :
    decodeInput (nextInput (s.withFetchWord nbits w)) = some i := by
  rw [nextInput_withFetchWord]
  exact decodeInput_commandWrite (encodeCmd_of_decodeCmd (decodeCmd_of_decodeTableWord h))

/-- Settles O7: the placed word is the next input, and it decodes to its command. -/
theorem placedWordRunsNext : Obligations.PlacedWordRunsNext := by
  intro s w i h
  rw [step_of_decodeInput (decodeInput_withFetchWord s h), takeInput_withFetchWord]

/-! ### The canonical memory -/

/-- Settles O50: an operation leaves the memory as it is or stores to a buffer, and a store keeps the addresses rising. -/
theorem everyOperationKeepsMemoryCanonical : Obligations.EveryOperationKeepsMemoryCanonical := by
  intro i s t h hwf
  rcases exec_keepsBuffers_or_stores h with ⟨hkept, _⟩ | ⟨o, w, v, _, _, _, rfl⟩
  · rw [hkept]; exact hwf
  · rw [progress_mem]; exact storeBuf_wf hwf s.work (o.toNat - 0x1000) w.bytes v

end Sys2Proof.Machine

/-! PROOFS. The family of `10_state.md`: the reset table (R58), the bits of `STATUS` (R53), the register map as it reads
(R52), the output pins (R24, R32, R33, R47), and what alone writes the descriptor, the roles of the buffers and the
vblank counter (R26, R38, R35). -/

namespace Sys2Proof.Machine

open Sys2Proof.Safety

/-! ### Reset -/

/-- No bit of `STATUS` reads a parameter, and of its bits only `EVT_MASK` is 1 after reset (R53, R58). -/
theorem statusWord_initial (p : Params) : statusWord (State.initial p) = 0x00000040#32 := by
  have hp : statusWord (State.initial p) = statusWord (State.initial Params.default) := rfl
  rw [hp]
  decide

/-- The registers of the four arrays after reset (R58). -/
theorem arrays_initial (p : Params) (i : Fin 16) :
    (State.initial p).slotFn[i] = 0 ∧ (State.initial p).tags[i] = .empty ∧
    (State.initial p).bandRange[i] = 0 ∧ (State.initial p).bandSlot[i] = 0 := by
  simp [State.initial]

/-- Settles O8: a reset step is `resetStep`, whose every field is that of the reset table. -/
theorem resetStepGivesTheResetTable : Obligations.ResetStepGivesTheResetTable := by
  intro s rest hs
  exact ⟨_, step_of_reset (nextInput_of_cons hs), ⟨rfl, rfl, rfl, rfl⟩, ⟨rfl, rfl, rfl, rfl, rfl, rfl, rfl⟩, rfl,
    ⟨rfl, rfl, rfl, rfl, rfl⟩, ⟨rfl, rfl⟩, ⟨rfl, rfl, rfl, rfl⟩, fun b => by cases b <;> rfl,
    ⟨rfl, rfl, rfl, rfl⟩, ⟨rfl, rfl⟩, ⟨rfl, rfl, rfl, rfl, rfl⟩, ⟨rfl, rfl, rfl⟩, arrays_initial s.params,
    ⟨rfl, rfl, rfl⟩, ⟨rfl, rfl, rfl⟩, ⟨rfl, rfl, rfl, rfl, rfl, rfl⟩, statusWord_initial s.params⟩

/-! ### The fields of a word -/

/-- Past its low part, a concatenation is its high part. -/
theorem getLsbD_append_add {n m : Nat} (x : BitVec n) (y : BitVec m) (i : Nat) :
    (x ++ y).getLsbD (i + m) = x.getLsbD i := by
  simp [BitVec.getLsbD_append]

theorem extractLsb'_append_add {n m : Nat} (x : BitVec n) (y : BitVec m) (i len : Nat) :
    (x ++ y).extractLsb' (i + m) len = x.extractLsb' i len := by
  ext j hj
  have hassoc : i + m + j = i + j + m := by omega
  simp [hassoc, getLsbD_append_add]

/-- A word ending in a one-bit field: bit 0 is the field, and the bits above it are the rest of the word. -/
theorem getLsbD_append_ofBool_zero {n : Nat} (x : BitVec n) (b : Bool) : (x ++ BitVec.ofBool b).getLsbD 0 = b := by
  rw [BitVec.getLsbD_append, if_pos Nat.one_pos]
  cases b <;> rfl

theorem getLsbD_append_ofBool_succ {n : Nat} (x : BitVec n) (b : Bool) (i : Nat) :
    (x ++ BitVec.ofBool b).getLsbD (i + 1) = x.getLsbD i :=
  getLsbD_append_add x _ i

theorem extractLsb'_append_ofBool_succ {n : Nat} (x : BitVec n) (b : Bool) (i len : Nat) :
    (x ++ BitVec.ofBool b).extractLsb' (i + 1) len = x.extractLsb' i len :=
  extractLsb'_append_add x _ i len

/-! ### `STATUS` -/

/-- The encoding of `dstate` in `STATUS` (R27, R53). -/
theorem statusWord_dstate (s : State) : (statusWord s).extractLsb' 1 2 = s.dstate.code := by
  unfold statusWord
  rw [extractLsb'_append_ofBool_succ]
  exact BitVec.extractLsb'_append_eq_right

theorem statusWord_reserved (s : State) : (statusWord s).extractLsb' 19 13 = 0#13 := by
  have code {n : Nat} (x : BitVec n) (c : BitVec 2) (i : Nat) : (x ++ c).extractLsb' (i + 2) 13 = x.extractLsb' i 13 :=
    extractLsb'_append_add x c i 13
  unfold statusWord
  simp only [extractLsb'_append_ofBool_succ, code]
  decide

/-- `IN_VBLANK` compares the line with the number of blanking lines (R14, R53). -/
theorem inVblankFlag_eq (s : State) : inVblankFlag s =
    (s.timRun && decide (s.vline.toNat < s.timing.vFp.toNat + s.timing.vSync.toNat + s.timing.vBp.toNat)) := by
  rw [inVblankFlag, Timing.visible, Timing.vb, ← decide_not]
  simp only [Nat.not_le]

/-- Settles O43: `STATUS` is the concatenation of its fields, of which each is found at its place. -/
theorem statusBits : Obligations.StatusBits := by
  refine ⟨statusWord_initial, ?_⟩
  intro s b
  have code {n : Nat} (x : BitVec n) (c : BitVec 2) (i : Nat) : (x ++ c).getLsbD (i + 2) = x.getLsbD i :=
    getLsbD_append_add x c i
  refine ⟨?init, ?dstate, ?others⟩
  case init => exact getLsbD_append_ofBool_zero _ _
  case dstate => exact (statusWord_dstate s).trans (by cases s.dstate <;> rfl)
  case others =>
    simp only [b, statusWord_reserved, ← inVblankFlag_eq]
    unfold statusWord
    simp only [getLsbD_append_ofBool_zero, getLsbD_append_ofBool_succ, code]
    simp [busy, bne]

/-! ### The register map -/

theorem readStep_reg {s : State} {o : BitVec 13} {w : Width} {r : Reg} (ht : target s.params o w = .reg r) :
    readStep o w s = { s with rdata := regValue r s } := by
  simp only [readStep, ht]

/-- Bit `i` of a word packed from a list of bits is the list's bit `i`. -/
theorem foldr_shiftLeft_getLsbD (bits : List Bool) (i : Nat) (hlen : bits.length ≤ 32) :
    (bits.foldr (fun b (w : Word) => (w <<< 1) ||| (BitVec.ofBool b).setWidth 32) 0).getLsbD i = bits.getD i false := by
  induction bits generalizing i with
  | nil => simp
  | cons b bits ih =>
    rw [List.length_cons] at hlen
    rw [List.foldr_cons, BitVec.getLsbD_or, BitVec.getLsbD_shiftLeft, BitVec.getLsbD_setWidth]
    cases i with
    | zero => cases b <;> rfl
    | succ i =>
      rw [Nat.add_sub_cancel, ih i (by omega), BitVec.getLsbD_of_ge (BitVec.ofBool b) _ (by omega)]
      by_cases hi : i + 1 < 32
      · simp [hi]
      · simp [hi, List.getElem?_eq_none (l := bits) (i := i) (by omega)]

/-- Bit `i` of `SLOT_TAGS` (R52). -/
theorem slotTagsWord_getLsbD (s : State) (i : Nat) :
    (slotTagsWord s).getLsbD i = (s.tags.toList.map SlotTag.bit).getD i false :=
  foldr_shiftLeft_getLsbD _ i (by simp)

/-- Settles O42: each offset is that of its register. -/
theorem registersReadAsMapped : Obligations.RegistersReadAsMapped := by
  intro s reads
  have reads_of {o : BitVec 13} {r : Reg} (ht : target s.params o .word = .reg r) : reads o (regValue r s) :=
    congrArg Host.Outcome.next (readStep_reg ht)
  have htags : (∀ i : Fin 16, (slotTagsWord s).getLsbD i = (s.tags[i] == .loaded)) ∧
      ∀ i, 16 ≤ i → (slotTagsWord s).getLsbD i = false := by
    refine ⟨fun i => ?_, fun i hi => ?_⟩ <;> rw [slotTagsWord_getLsbD]
    · rw [← List.getElem_eq_getD (h := by simp) false]
      simp only [List.getElem_map, Vector.getElem_toList, Fin.getElem_fin]
      cases s.tags[i.val] <;> rfl
    · simp [hi]
  have hshift : 0#24 ++ s.shiftDiv = s.shiftDiv.setWidth 32 := (BitVec.setWidth_eq_append (by decide)).symm
  have hrepeat : 0#16 ++ s.repeatCtr = s.repeatCtr.setWidth 32 := (BitVec.setWidth_eq_append (by decide)).symm
  refine ⟨reads_of (r := .cmd) rfl, reads_of (r := .status) rfl, reads_of (r := .result) rfl,
    reads_of (r := .fault) rfl,
    reads_of (r := .faultInfo) rfl, reads_of (r := .vblCount) rfl, reads_of (r := .pos) rfl,
    reads_of (r := .rastLine) rfl, reads_of (r := .rastFn) rfl, reads_of (r := .ctxRange) rfl,
    reads_of (r := .ctxMode) rfl, hshift ▸ reads_of (r := .shiftDiv) rfl, ⟨_, reads_of (r := .slotTags) rfl, htags⟩,
    hrepeat ▸ reads_of (r := .repeatCtr) rfl, reads_of (r := .bandState) rfl, reads_of (r := .shape0) rfl,
    reads_of (r := .shape1) rfl, reads_of (r := .tdCtrl) rfl, reads_of (r := .tdH0) rfl, reads_of (r := .tdH1) rfl,
    reads_of (r := .tdH2) rfl, reads_of (r := .tdV0) rfl, reads_of (r := .tdV1) rfl, reads_of (r := .tdV2) rfl,
    fun i => ⟨reads_of (target_slotFn _ i), reads_of (target_bandRange _ i), reads_of (target_bandSlot _ i)⟩⟩

/-! ### The pins -/

/-- Settles O58: the two pins are `hsync` of R32 and `vsync` of R33, whose tests are the same. -/
theorem syncPinsFollowTheRaster : Obligations.SyncPinsFollowTheRaster := by
  intro s hf
  refine ⟨fun hz => ⟨?_, ?_⟩, fun hd => ⟨?_, ?_⟩⟩
  · simp [hsyncPin, hf, hz]
  · simp [vsyncPin, hf, hz]
  · simp [hsyncPin, hf, hd, apply_ite Level.ofBool]
  · simp [vsyncPin, hf, hd, apply_ite Level.ofBool, and_assoc]

/-- Settles O59: each pin is defined as its function of the state. -/
theorem outputPinsAreFunctionsOfTheState : Obligations.OutputPinsAreFunctionsOfTheState :=
  fun _ => ⟨rfl, rfl, rfl, rfl⟩

/-! ### Who writes the descriptor, the roles of the buffers and the vblank counter -/

section

variable {α : Type} (field : State → α) {f : State → State} {s : State} (h : field (f s) = field s)

include h

/-- A field that a sub-step leaves alone is left alone whether the sub-step is performed or not. -/
theorem thenDo_frame : field (thenDo s f) = field s := by
  unfold thenDo
  split
  · rfl
  · exact h

theorem performEvent_frame : field (performEvent f s) = field s := thenDo_frame field h

theorem when_frame (due : Bool) : field (if due then f s else s) = field s := by
  cases due
  · rfl
  · exact h

end

/-- The three items that few operations write (R26, R38, R35). -/
def rareItems (s : State) : Timing × Bool × Word := (s.timing, s.work, s.vblCount)

theorem rareItems_eq_iff {s t : State} :
    rareItems t = rareItems s ↔ t.timing = s.timing ∧ t.work = s.work ∧ t.vblCount = s.vblCount := by
  simp [rareItems]

theorem rareItems_busStable (x : Timing × Bool × Word) : BusStable fun t => rareItems t = x where
  raises _ _ _ h := h
  progresses s h := by simpa [rareItems] using h
  reads _ _ h := h
  stores _ _ _ _ _ h := h

/-- No command but `CFG_TIMING` writes one of them. -/
theorem performCommand_rareItems {i : Instr} (hi : i ≠ .cfgTiming) (s : State) :
    rareItems (performCommand i s) = rareItems s := by
  have hP := rareItems_busStable (rareItems s)
  cases i with
  | cfgTiming => exact absurd rfl hi
  | new | stopSync | rastOpen | rastClose | syncVblank | videoOn | videoOff | rastFail =>
    exact hP.issueCommand rfl _ fun _ => rfl
  | bandsOpen n =>
    refine hP.issueCommand rfl _ fun _ => ?_
    split <;> rfl
  | rastDone =>
    refine hP.issueCommand rfl _ fun _ => ?_
    split
    · rfl
    · split
      · rfl
      · simp [rareItems]
  | _ => rfl

/-- `CFG_TIMING` starts the timers with a valid staged descriptor while the driver is Idle, or it writes none of
them (R151 to R153). -/
theorem cfgTimingCommand_rareItems (s : State) :
    (s.dstate = .idle ∧ (stagedTiming s).valid = true ∧ cfgTimingCommand s = startSync s) ∨
    rareItems (cfgTimingCommand s) = rareItems s := by
  have hP := rareItems_busStable (rareItems s)
  by_cases hl : legalHere .cfgTiming s
  · cases hf : s.faulted with
    | true => exact .inr (congrArg rareItems (performCommand_faulted (i := .cfgTiming) rfl hf))
    | false =>
      rw [Host.Outcome.next.inj (exec_cfgTiming_legal hf hl)]
      obtain ⟨_, hidle, _⟩ := hl
      split
      case isTrue hvalid => exact .inl ⟨hidle, hvalid, rfl⟩
      case isFalse => exact .inr rfl
  · exact .inr (hP.performCommand_of_not_legal (i := .cfgTiming) rfl rfl hl)

theorem regMap_cmd : ∀ x ∈ regMap, x.2 = .cmd → x.1 = 0 := by decide

theorem regAt_eq_cmd {off : Nat} (h : regAt off = some .cmd) : off = 0 := by
  unfold regAt at h
  split at h
  · cases h
  · split at h
    · split at h <;> cases h
    · obtain ⟨before, after, hsplit, _⟩ := List.lookup_eq_some_iff.1 h
      exact regMap_cmd (off, .cmd) (by simp [hsplit]) rfl

/-- `CMD` is at offset 0 and reached by a word access (R52, R86). -/
theorem target_eq_cmd {p : Params} {o : BitVec 13} {w : Width} (h : target p o w = .reg .cmd) :
    o = 0#13 ∧ w = .word := by
  unfold target at h
  dsimp only at h
  split at h
  · split at h <;> cases h
  · split at h
    case isTrue ha =>
      obtain ⟨rfl, _⟩ := ha
      split at h
      case h_1 r hr =>
        cases h
        exact ⟨BitVec.eq_of_toNat_eq (regAt_eq_cmd hr), rfl⟩
      case h_2 => cases h
    case isFalse => cases h

/-- A bus write that is not the word of `CFG_TIMING` in `CMD` writes none of them. -/
theorem writeStep_rareItems (o : BitVec 13) (w : Width) (v : Word) (s : State) :
    (Instr.wr o w v = .wr 0#13 .word 0x02000000#32 ∧ writeStep o w v s = cfgTimingCommand s) ∨
    rareItems (writeStep o w v s) = rareItems s := by
  have hP := rareItems_busStable (rareItems s)
  rcases writeStep_cases o w v s with ⟨_, he⟩ | ⟨_, he⟩ | ⟨_, ht, he⟩ | ⟨r, _, _, _, he⟩ | ⟨k, _, _, _, he⟩ <;> rw [he]
  · exact .inr rfl
  · exact .inr rfl
  · cases hd : decodeCmd v with
    | error e => rw [commandWrite_error hd]; exact .inr rfl
    | ok i =>
      rw [commandWrite_ok hd]
      by_cases hi : i = .cfgTiming
      · subst hi
        obtain ⟨rfl, rfl⟩ := target_eq_cmd ht
        cases encodeCmd_of_decodeCmd hd
        exact .inl ⟨rfl, rfl⟩
      · exact .inr (performCommand_rareItems hi s)
  · exact .inr (hP.progresses _ (by simp [rareItems]))
  · exact .inr (hP.progresses _ rfl)

/-- Everything that can write one of the three items: a `TICK`, a `SAV`, an `EAV`, and a `CFG_TIMING` that starts the
timers. -/
theorem exec_rareItems {i : Instr} {s t : State} (h : exec i s = .next t) :
    (i = .tick ∧ t = tickStep s) ∨ (i = .sav ∧ t = performEvent savEvent s) ∨
    (i = .eav ∧ t = performEvent eavEvent s) ∨
    ((i = .cfgTiming ∨ i = .wr 0#13 .word 0x02000000#32) ∧
      s.dstate = .idle ∧ (stagedTiming s).valid = true ∧ t = startSync s) ∨
    rareItems t = rareItems s := by
  have hP := rareItems_busStable (rareItems s)
  have starts {u : State} (hi : i = .cfgTiming ∨ i = .wr 0#13 .word 0x02000000#32) (hu : u = cfgTimingCommand s) :
      ((i = .cfgTiming ∨ i = .wr 0#13 .word 0x02000000#32) ∧
        s.dstate = .idle ∧ (stagedTiming s).valid = true ∧ u = startSync s) ∨ rareItems u = rareItems s := by
    rw [hu]
    exact (cfgTimingCommand_rareItems s).imp_left fun hstart => ⟨hi, hstart⟩
  cases i with
  | tick => cases h; exact .inl ⟨rfl, rfl⟩
  | sav => cases h; exact .inr (.inl ⟨rfl, rfl⟩)
  | eav => cases h; exact .inr (.inr (.inl ⟨rfl, rfl⟩))
  | cfgTiming => cases h; exact .inr (.inr (.inr (starts (.inl rfl) rfl)))
  | wr o w v =>
    cases h
    rcases writeStep_rareItems o w v s with ⟨hi, he⟩ | hkept
    · exact .inr (.inr (.inr (starts (.inr hi) he)))
    · exact .inr (.inr (.inr (.inr hkept)))
  | rd o w => cases h; exact .inr (.inr (.inr (.inr (hP.readStep rfl o w))))
  | rast r k =>
    cases h
    exact .inr (.inr (.inr (.inr (performEvent_frame rareItems (by simp [rareItems])))))
  | dmabeat =>
    cases h
    exact .inr (.inr (.inr (.inr (performEvent_frame rareItems rfl))))
  | _ =>
    rw [exec_eq_performCommand s rfl] at h
    cases h
    exact .inr (.inr (.inr (.inr (performCommand_rareItems (by simp) s))))

/-! #### The descriptor -/

theorem tickStep_timing (s : State) : (tickStep s).timing = s.timing := by
  have hlist := tickStep_bandList s
  simp only [bandList, Prod.mk.injEq] at hlist
  obtain ⟨_, _, _, htiming⟩ := hlist
  exact htiming

/-- Settles O51: of what can write it, `CFG_TIMING` alone does, from the staged words. -/
theorem onlyCfgTimingWritesTheDescriptor : Obligations.OnlyCfgTimingWritesTheDescriptor := by
  intro i s t h hne
  rcases exec_rareItems h with ⟨_, rfl⟩ | ⟨_, rfl⟩ | ⟨_, rfl⟩ | ⟨hi, hidle, hvalid, rfl⟩ | hkept
  · exact absurd (tickStep_timing s) hne
  · exact absurd (performEvent_frame State.timing (savEvent_timing s)) hne
  · exact absurd (performEvent_frame State.timing (eavEvent_timing s)) hne
  · exact ⟨hi, hidle, hvalid, rfl⟩
  · obtain ⟨htiming, _, _⟩ := rareItems_eq_iff.1 hkept
    exact absurd htiming hne

/-! #### The roles of the buffers -/

/-- `SAV` swaps only with a committed buffer waiting and no rasterization running (R182). -/
theorem savEvent_moves_work {s : State} (h : (savEvent s).work ≠ s.work) : s.fresh = true ∧ s.rastBusy = false := by
  rcases savEvent_cases s with ⟨_, he⟩ | ⟨_, _, he⟩ | ⟨_, _, _, he⟩ | ⟨_, hb, _, he⟩ <;> rw [he] at h
  case inr.inr.inr =>
    rcases swapBuffers_cases s with ⟨hfresh, _⟩ | ⟨_, hs⟩
    · exact ⟨hfresh, hb⟩
    · simp [hs] at h
  all_goals exact absurd rfl h

/-- Of the events of a `TICK` only `SAV` swaps (R157). -/
theorem tickEvents_work (s : State) : (tickEvents s).work = (if savDue s then savEvent s else s).work := by
  have heav (u : State) : (thenDo u fun s => if eavDue s then eavEvent s else s).work = u.work :=
    thenDo_frame State.work (when_frame State.work (eavEvent_work u) _)
  have hbeat (u : State) : (thenDo u fun s => if beatDue s then dmaBeat s else s).work = u.work :=
    thenDo_frame State.work (when_frame State.work (dmaBeat_work u) _)
  exact (hbeat _).trans (heav _)

/-- In a `TICK` the buffers change roles only where `SAV` is due and swaps them (R157). -/
theorem tickStep_moves_work {s : State} (h : (tickStep s).work ≠ s.work) :
    savDue s = true ∧ (savEvent s).work ≠ s.work := by
  have hevents : (tickStep s).work = s.work ∨ (tickStep s).work = (tickEvents s).work := by
    rcases tickStep_cases s with he | ⟨_, he⟩ | ⟨_, _, _, he⟩ <;> rw [he]
    · exact .inl rfl
    · exact .inr rfl
    · refine .inr ?_
      rw [countTick_work, progress_work]
      exact when_frame State.work (gateCountdown_work _) _
  rw [hevents.resolve_left h, tickEvents_work] at h
  cases hdue : savDue s with
  | false => exact absurd (by rw [hdue]; rfl) h
  | true => exact ⟨rfl, by rwa [hdue, if_pos rfl] at h⟩

/-- Settles O53: the swap of `SAV`, in a `TICK` or by itself, and the start of the timers. -/
theorem rolesChangeOnlyAtSav : Obligations.RolesChangeOnlyAtSav := by
  intro i s t h hne
  rcases exec_rareItems h with ⟨hi, rfl⟩ | ⟨hi, rfl⟩ | ⟨_, rfl⟩ | ⟨hi, _, _, rfl⟩ | hkept
  · obtain ⟨hdue, hmoves⟩ := tickStep_moves_work hne
    exact .inl ⟨.inr ⟨hi, hdue⟩, savEvent_moves_work hmoves⟩
  · exact .inl ⟨.inl hi, savEvent_moves_work fun hkept => hne (performEvent_frame State.work hkept)⟩
  · exact absurd (performEvent_frame State.work (eavEvent_work s)) hne
  · exact .inr ⟨hi, rfl⟩
  · obtain ⟨_, hwork, _⟩ := rareItems_eq_iff.1 hkept
    exact absurd hwork hne

/-! #### The vblank counter -/

/-- From `s` to `t` the vblank counter is kept, or counts one frame boundary (R184). -/
def CountsVblank (s t : State) : Prop :=
  t.vblCount = s.vblCount ∨ (t.vline = 0 ∧ t.vblCount.toNat = s.vblCount.toNat + 1)

/-- Only the counter and the line are looked at. -/
theorem CountsVblank.congr {s s' t t' : State} (h : CountsVblank s t) (hs : s'.vblCount = s.vblCount)
    (ht : (t'.vblCount, t'.vline) = (t.vblCount, t.vline)) : CountsVblank s' t' := by
  obtain ⟨hcount, hline⟩ := Prod.mk.inj ht
  unfold CountsVblank
  rwa [hs, hcount, hline]

theorem frameBoundary_countsVblank (s : State) : CountsVblank s (frameBoundary s) := by
  rcases frameBoundary_cases s with ⟨_, he⟩ | ⟨_, _, he⟩ | ⟨hzero, hmax, he⟩ <;> rw [he]
  · exact .inl rfl
  · exact .inl rfl
  · refine .inr ⟨hzero, ?_⟩
    change (s.vblCount + 1).toNat = s.vblCount.toNat + 1
    bv_omega

theorem eavEvent_countsVblank (s : State) : CountsVblank s (eavEvent s) := by
  rcases eavEvent_cases s with ⟨_, _, he⟩ | ⟨_, he⟩ <;> rw [he]
  · exact .inl rfl
  · exact (frameBoundary_countsVblank (endLine (nextLine s) s)).congr rfl
      (thenDo_frame (fun s => (s.vblCount, s.vline)) (by simp))

/-- Of the events of a `TICK` only `EAV` counts, and it comes once (R157). -/
theorem tickEvents_countsVblank (s : State) : CountsVblank s (tickEvents s) := by
  have heav (u : State) : CountsVblank u (thenDo u fun s => if eavDue s then eavEvent s else s) := by
    unfold thenDo
    split
    · exact .inl rfl
    · dsimp only
      split
      · exact eavEvent_countsVblank u
      · exact .inl rfl
  exact (heav _).congr (when_frame State.vblCount (savEvent_vblCount s) _).symm
    (thenDo_frame (fun s => (s.vblCount, s.vline)) (when_frame (fun s => (s.vblCount, s.vline)) rfl _))

theorem tickStep_countsVblank (s : State) : CountsVblank s (tickStep s) := by
  rcases tickStep_cases s with he | ⟨_, he⟩ | ⟨_, _, _, he⟩ <;> rw [he]
  · exact .inl rfl
  · exact tickEvents_countsVblank s
  · refine (tickEvents_countsVblank s).congr rfl ?_
    rw [countTick_vblCount, countTick_vline, progress_vblCount, progress_vline]
    exact when_frame (fun s => (s.vblCount, s.vline)) (by simp) _

/-- Settles O54: of what can write the counter, `EAV` alone does, in a `TICK` or by itself. -/
theorem vblankCounterIsMonotone : Obligations.VblankCounterIsMonotone := by
  intro i s t h
  rcases exec_rareItems h with ⟨hi, rfl⟩ | ⟨_, rfl⟩ | ⟨hi, rfl⟩ | ⟨_, _, _, rfl⟩ | hkept
  · exact (tickStep_countsVblank s).imp_right fun hcounts => ⟨.inr hi, hcounts⟩
  · exact .inl (performEvent_frame State.vblCount (savEvent_vblCount s))
  · unfold performEvent
    split
    · exact .inl rfl
    · exact (eavEvent_countsVblank s).imp_right fun hcounts => ⟨.inl hi, hcounts⟩
  · exact .inl rfl
  · obtain ⟨_, _, hcount⟩ := rareItems_eq_iff.1 hkept
    exact .inl hcount

end Sys2Proof.Machine

/-! PROOFS. The invariant of R57 (`10_state.md`): the state after reset meets it, and every step keeps it. -/

namespace Sys2Proof.Machine

open Sys2Proof.Safety

/-! ### Reset -/

/-- With nothing started, no shape valid and no slot Loaded, every clause of R57 holds. -/
theorem running_initial (p : Params) : Running (State.initial p) where
  notInit _ := rfl
  started h := absurd rfl h
  idle _ := ⟨rfl, rfl, rfl, rfl, rfl⟩
  position h := nomatch h
  shapes b h := by cases b <;> cases h
  transfer h := nomatch h
  blanking _ := ⟨rfl, rfl⟩
  mutex h := nomatch h
  liveScope h := nomatch h
  lineNumber h := nomatch h
  bandList h := nomatch h
  busyScope h := nomatch h
  busyWindow h := nomatch h
  waitSample _ _ h := nomatch h
  draining h := nomatch h
  published h := nomatch h
  loadedScope k hk h := by simp [tagLoaded, arrayAt, hk, State.initial] at h
  vblankPointers _ _ := ⟨rfl, rfl⟩
  bandPointer h := nomatch h
  shiftBounds b h := by cases b <;> cases h
  divBounds h := nomatch h
  beatWindow h := nomatch h
  beatPlace h := nomatch h
  freshShape h := nomatch h
  gateMutex _ _ h := nomatch h
  driven h := nomatch h

theorem inv_initial {p : Params} (hp : p.wf = true) : Inv (State.initial p) :=
  ⟨hp, .nil, fun _ => running_initial p⟩

/-- Settles O49: the default parameters are legal. -/
theorem resetMeetsTheInvariant : Obligations.ResetMeetsTheInvariant :=
  ⟨fun _ hp => inv_initial hp, inv_initial (by decide)⟩

/-- The reset input leaves the state of the parameters right after reset, with the steps still asked for (R350). -/
theorem inv_resetStep {s : State} (h : Inv s) : Inv (resetStep s) :=
  ⟨h.params, .nil, fun _ => { running_initial s.params with }⟩

/-! ### What a bus operation does beside its effect -/

/-- In a running state no host operation is ready to complete: a drain still finds the rasterizer, and a wait has seen
no boundary since its sample. -/
theorem progress_of_running {s : State} (h : Running s) : progress s = s := by
  cases hhop : s.hop with
  | none => exact progress_of_hop_none hhop
  | gateHold rem target => exact progress_of_gateHold hhop
  | drain =>
    obtain ⟨_, _, hb, _⟩ := h.draining hhop
    exact progress_of_drain_busy hhop hb
  | waitVbl sample next =>
    obtain rfl := h.waitSample sample next hhop
    exact progress_of_waitVbl_le hhop (Nat.le_refl _)

theorem inv_progress {s : State} (h : Inv s) : Inv (progress s) where
  params := by simpa using h.params
  memory := by simpa using h.memory
  running hf := by
    have hrun := h.running (by simpa using hf)
    rwa [progress_of_running hrun]

theorem inv_busStable : BusStable Inv where
  raises _ _ _ h := ⟨h.params, h.memory, fun hf => nomatch hf⟩
  progresses _ h := inv_progress h
  reads _ _ h := ⟨h.params, h.memory, fun hf => { h.running hf with }⟩
  stores _ _ _ _ _ h := ⟨h.params, storeBuf_wf h.memory _ _ _ _, fun hf => { h.running hf with }⟩

/-- An update that keeps the parameters, the buffers and the fault flag keeps the invariant when it keeps R57. -/
theorem inv_update {s t : State} (h : Inv s) (hp : t.params = s.params) (hm : t.mem = s.mem)
    (ht : t.faulted = false → Running t) : Inv t :=
  ⟨by rw [hp]; exact h.params, by rw [hm]; exact h.memory, ht⟩

/-! ### What the clauses of R57 give a command -/

/-- Before the driver is started no host operation is in progress (I3). -/
theorem hop_none_of_idle {s : State} (h : Running s) (hidle : s.dstate = .idle) : s.hop = .none := by
  obtain ⟨_, _, hhop, _⟩ := h.idle hidle
  exact hhop

theorem started_of_hop {s : State} (h : Running s) (hhop : s.hop ≠ .none) : s.dstate ≠ .idle :=
  fun hidle => hhop (hop_none_of_idle h hidle)

/-- The timers run only while the driver is started (I3). -/
theorem started_of_timRun {s : State} (h : Running s) (hr : s.timRun = true) : s.dstate ≠ .idle := by
  intro hidle
  obtain ⟨hstop, _⟩ := h.idle hidle
  exact nomatch hr.symm.trans hstop

/-- A drain waits for the rasterizer, so that without one there is none (R253, R254). -/
theorem hop_ne_drain {s : State} (h : Running s) (hb : s.rastBusy = false) : s.hop ≠ .drain := by
  intro hdrain
  obtain ⟨_, _, hbusy, _⟩ := h.draining hdrain
  exact nomatch hb.symm.trans hbusy

/-- Rasterization is live only inside a scope (I9). -/
theorem scope_of_live {s : State} (h : Running s) (hl : s.live = true) : s.dstate = .rasterLoaded := by
  obtain ⟨hopen, _⟩ := h.liveScope hl
  exact hopen

/-- Outside a gate hold nobody has the mutex (I8). -/
theorem mtxOwner_free {s : State} (h : Running s) (hhop : ∀ rem target, s.hop ≠ .gateHold rem target) :
    s.mtxOwner = .free := by
  cases hm : s.mtxOwner with
  | free => rfl
  | thread =>
    obtain ⟨_, rem, target, heq⟩ := h.mutex hm
    exact absurd heq (hhop rem target)

theorem tagLoaded_of_lt (s : State) {k : Nat} (hk : k < 16) : tagLoaded s k = true ↔ s.tags[k] = .loaded := by
  simp [tagLoaded, arrayAt, hk]

/-- A commit writes the shape of the working buffer alone (R193 step 4). -/
theorem shapeOf_commitContext (s : State) (b : Bool) : shapeOf (commitContext s) b =
    if b = s.work then { start := lowHalf s.ctxRange, stop := highHalf s.ctxRange, valid := true }
    else shapeOf s b := by
  rw [commitContext_eq]
  cases b <;> cases s.work <;> simp [shapeOf]

section

variable {s : State} (h : Running s)

include h

/-! ### The driver and the sync generator -/

theorem running_new (hinit : s.init = false) : Running { s with init := true, dstate := .idle, result := 0 } := by
  rw [← h.notInit hinit]
  exact { h with notInit := nofun }

theorem running_refuse (code : Word) : Running (refuse code s) := { h with }

/-- `CFG_TIMING` starts with nothing shown, nothing in flight and the timers at 0 (R152). -/
theorem running_startSync (hinit : s.init = true) (hidle : s.dstate = .idle) (hvalid : (stagedTiming s).valid = true) :
    Running (startSync s) := by
  have hhop := hop_none_of_idle h hidle
  obtain ⟨_, _, _, hlate, _, hvb, hframe⟩ := Timing.valid_order hvalid
  exact {
    notInit := fun hno => by rw [startSync_init, hinit] at hno; cases hno
    started := fun _ => ⟨rfl, rfl, hvalid⟩
    idle := nofun
    position := fun _ => ⟨Nat.zero_lt_of_lt hlate, show 0 < (stagedTiming s).vTotal.toNat by omega⟩
    shapes := fun b hb => by cases b <;> cases hb
    transfer := nofun
    blanking := fun _ => ⟨rfl, rfl⟩
    mutex := nofun
    liveScope := nofun
    lineNumber := nofun
    bandList := nofun
    busyScope := nofun
    busyWindow := nofun
    waitSample := h.waitSample
    draining := fun hdrain => nomatch hhop.symm.trans hdrain
    published := nofun
    loadedScope := fun k hk hl => nomatch hidle.symm.trans (h.loadedScope k hk hl)
    vblankPointers := fun _ _ => ⟨rfl, rfl⟩
    bandPointer := nofun
    shiftBounds := fun b hb => by cases b <;> cases hb
    divBounds := nofun
    beatWindow := nofun
    beatPlace := nofun
    freshShape := nofun
    gateMutex := fun rem target hgate => nomatch hhop.symm.trans hgate
    driven := fun _ => rfl }

/-- `STOP_SYNC` comes outside a scope, so that no rasterization is in flight (R156). -/
theorem running_stopSync (hsync : s.dstate = .syncGen) (hhop : s.hop = .none) :
    Running { s with
      evtMask := true, timRun := false, dmaActive := false, videoOut := 0, dstate := .idle, result := 0 } := by
  have noScope {p : Prop} (hopen : s.dstate = .rasterLoaded) : p := nomatch hsync.symm.trans hopen
  have hb : s.rastBusy = false := Bool.eq_false_iff.2 fun hb => noScope (h.busyScope hb)
  exact { h with
    notInit := fun _ => rfl
    started := fun hno => absurd rfl hno
    idle := fun _ => ⟨rfl, rfl, hhop, hb, rfl⟩
    position := nofun
    transfer := nofun
    blanking := fun _ => ⟨rfl, rfl⟩
    liveScope := fun hl => noScope (scope_of_live h hl)
    bandList := nofun
    busyScope := fun hb => noScope (h.busyScope hb)
    draining := fun hdrain => nomatch hhop.symm.trans hdrain
    published := nofun
    loadedScope := fun k hk hl => noScope (h.loadedScope k hk hl)
    vblankPointers := nofun
    divBounds := nofun
    beatWindow := nofun
    beatPlace := nofun
    driven := nofun }

/-- A wait is queued with its sample, and only where no host operation is in progress (R275). -/
theorem running_wait (hhop : s.hop = .none) (hstarted : s.dstate ≠ .idle) (next : WaitThen) :
    Running { s with hop := .waitVbl s.vblCount next } := by
  have hfree := mtxOwner_free h (by simp [hhop])
  exact { h with
    idle := fun hidle => absurd hidle hstarted
    mutex := fun hm => nomatch hfree.symm.trans hm
    waitSample := fun sample next' heq => by cases heq; rfl
    draining := nofun
    published := fun hopen _ => h.published hopen (by simp [hhop])
    gateMutex := nofun }

/-! ### The scope -/

/-- A list is published outside a scope, with the slots that it names Loaded and nothing live yet (R252, R291). -/
theorem running_publish {ranges slots : Vector Word 16} {n : BitVec 8} {tags : Vector SlotTag 16}
    (hinit : s.init = true) (hsync : s.dstate = .syncGen) (hhop : s.hop = .none) {t : State}
    (ht : t = { s with
      bandRange := ranges, bandSlot := slots, bandN := n, tags := tags, dstate := .rasterLoaded, result := 0 })
    (hcover : bandsCover t n.toNat = true)
    (hempty : bandsNonEmpty t n.toNat = true ∨ (s.timing.vVideo = 0 ∧ n = 1))
    (hload : ∀ i, i < n.toNat → tagLoaded t (bandSlotAt t i).toNat = true) : Running t := by
  have noScope {p : Prop} (hopen : s.dstate = .rasterLoaded) : p := nomatch hsync.symm.trans hopen
  obtain ⟨⟨hn, _⟩, _⟩ := (bandsCover_iff _ _).1 hcover
  subst ht
  exact { h with
    notInit := fun hno => nomatch hinit.symm.trans hno
    started := fun _ => h.started (by simp [hsync])
    idle := nofun
    liveScope := fun hl => noScope (scope_of_live h hl)
    bandList := fun _ => ⟨hcover, hempty⟩
    busyScope := fun hb => noScope (h.busyScope hb)
    draining := fun hdrain => nomatch hhop.symm.trans hdrain
    published := fun _ _ => ⟨hn, hload⟩
    loadedScope := fun _ _ _ => rfl
    bandPointer := fun hl => noScope (scope_of_live h hl) }

/-- The end of a scope, with the slots revoked and no rasterization in flight (R253, R254). -/
theorem running_scopeEnded {tags : Vector SlotTag 16} {live busy : Bool} (hopen : s.dstate = .rasterLoaded)
    (hhop : ∀ rem target, s.hop ≠ .gateHold rem target) (htags : tags = Vector.replicate 16 .empty)
    (hlive : live = false) (hb : busy = false) :
    Running { s with
      tags := tags, live := live, rastBusy := busy, dstate := .syncGen, hop := .none, result := 0 } := by
  have hfree := mtxOwner_free h hhop
  subst htags hlive hb
  exact { h with
    notInit := fun hno => nomatch hopen.symm.trans (h.notInit hno)
    started := fun _ => h.started (by simp [hopen])
    idle := nofun
    mutex := fun hm => nomatch hfree.symm.trans hm
    liveScope := nofun
    lineNumber := nofun
    bandList := nofun
    busyScope := nofun
    busyWindow := nofun
    waitSample := nofun
    draining := nofun
    published := nofun
    loadedScope := fun k hk hl => by simp [tagLoaded_of_lt _ hk] at hl
    bandPointer := nofun
    gateMutex := nofun }

/-- Revoking the slots while the rasterizer is busy begins the drain (R253). -/
theorem running_drain (hopen : s.dstate = .rasterLoaded) (hhop : s.hop = .none) (hb : s.rastBusy = true) :
    Running { s with tags := Vector.replicate 16 .empty, live := false, hop := .drain } := by
  have revoked (k : Nat) (hk : k < 16) :
      tagLoaded { s with tags := Vector.replicate 16 .empty, live := false, hop := .drain } k = false := by
    simp [tagLoaded, arrayAt, hk]
  have hfree := mtxOwner_free h (by simp [hhop])
  exact { h with
    idle := fun hidle => nomatch hopen.symm.trans hidle
    mutex := fun hm => nomatch hfree.symm.trans hm
    liveScope := nofun
    waitSample := nofun
    draining := fun _ => ⟨hopen, rfl, hb, revoked⟩
    published := fun _ hno => absurd rfl hno
    loadedScope := fun _ _ _ => hopen
    bandPointer := nofun
    gateMutex := nofun }

/-! ### The rasterizer -/

/-- A legal context is committed to the working buffer on a visible line (R193). -/
theorem running_commitContext (hv : s.timing.visible s.vline = true) (hok : badContext s = false)
    (hnear : divOutOfRange s = false) (hhop : s.hop ≠ .drain) : Running (commitContext s) := by
  have hctx := mt (badContext_iff s).2 (by simp [hok])
  have hdiv := mt (divOutOfRange_iff s).2 (by simp [hnear])
  have hshape := shapeOf_commitContext s
  rw [commitContext_eq] at hshape ⊢
  exact { h with
    idle := fun hidle =>
      let ⟨hstop, hmask, hnone, _, hd⟩ := h.idle hidle
      ⟨hstop, hmask, hnone, rfl, hd⟩
    shapes := fun b => by
      rw [hshape]
      split
      · exact fun _ => ⟨by simp only; omega, by simp only; omega⟩
      · exact h.shapes b
    lineNumber := nofun
    busyScope := nofun
    busyWindow := nofun
    draining := fun hdrain => absurd hdrain hhop
    vblankPointers := fun _ hdark => nomatch hv.symm.trans hdark
    shiftBounds := fun _ _ => ⟨by simp only; omega, by simp only; omega⟩
    beatPlace := by
      have hscan : shapeOf _ (!s.work) = shapeOf s (!s.work) := (hshape _).trans (if_neg (by simp))
      simp only [hscan]
      exact h.beatPlace
    freshShape := fun _ => by
      have hwork : shapeOf _ s.work = _ := (hshape s.work).trans (if_pos rfl)
      simp only [hwork] }

end

/-! ### Commands -/

section

variable {s : State} (h : Running s)

include h

/-- `RAST_OPEN` publishes one band over all visible lines (R252). -/
theorem running_rastOpen (hinit : s.init = true) (hsync : s.dstate = .syncGen) (hhop : s.hop = .none) :
    Running { s with
      bandRange := s.bandRange.set 0 (s.timing.vVideo ++ 0#16), bandSlot := s.bandSlot.set 0 0, bandN := 1
      tags := s.tags.set 0 .loaded, dstate := .rasterLoaded, result := 0 } := by
  generalize ht : ({ s with bandRange := _, bandSlot := _, bandN := _, tags := _, dstate := _, result := _ } : State) = t
  have hrange : bandRangeAt t 0 = s.timing.vVideo ++ 0#16 := by simp [← ht, bandRangeAt, arrayAt]
  have hslot : (bandSlotAt t 0).toNat = 0 := by simp [← ht, bandSlotAt, arrayAt, bandSlotIndex]
  have htiming : t.timing = s.timing := by rw [← ht]
  refine running_publish h hinit hsync hhop ht.symm ?cover ?nonEmpty ?loaded
  case cover =>
    refine (bandsCover_iff _ _).2 ⟨by decide, ?_, by simp, ?_, ?_⟩
    · rw [hrange]; exact lowHalf_append _ _
    · rw [htiming, show (1 : BitVec 8).toNat - 1 = 0 from rfl, hrange]; exact highHalf_append _ _
    · intro i hi
      obtain rfl : i = 0 := by simpa using hi
      omega
  case nonEmpty =>
    by_cases hvideo : s.timing.vVideo = 0
    · exact .inr ⟨hvideo, rfl⟩
    · refine .inl ((bandsNonEmpty_iff _ _).2 fun i hi => ?_)
      obtain rfl : i = 0 := by simpa using hi
      rw [hrange, bandStart, bandEnd, lowHalf_append, highHalf_append]
      exact Nat.pos_of_ne_zero fun h0 => hvideo (BitVec.eq_of_toNat_eq h0)
  case loaded =>
    intro i hi
    obtain rfl : i = 0 := by simpa using hi
    rw [hslot, tagLoaded_of_lt _ (by decide), ← ht]
    simp

/-- `BANDS_OPEN` publishes a well-formed list (R291). -/
theorem running_bandsOpen {n : BitVec 8} (hinit : s.init = true) (hsync : s.dstate = .syncGen) (hhop : s.hop = .none)
    (hwf : bandsWellFormed s n.toNat = true) :
    Running { s with bandN := n, tags := loadTags s n.toNat, dstate := .rasterLoaded, result := 0 } := by
  obtain ⟨hcover, hempty⟩ := (bandsWellFormed_iff _ _).1 hwf
  refine running_publish h hinit hsync hhop rfl hcover (.inl hempty) fun i hi => ?_
  obtain ⟨_, _, _, _, hslots⟩ := (bandsCover_iff _ _).1 hcover
  have hslot := hslots i hi
  exact (tagLoaded_of_lt _ hslot).2 ((loadTags_loaded_iff s n.toNat ⟨_, hslot⟩).2 (.inr ⟨i, hi, rfl⟩))

/-- The `progress()` of `RAST_DONE` ends the drain that waited for it, if there is one (R193 step 9, R254). -/
theorem running_rastDone (hb : s.rastBusy = true) (hok : badContext s = false) (hnear : divOutOfRange s = false) :
    Running (progress (commitContext s)) := by
  obtain ⟨hv, _⟩ := h.lineNumber hb
  by_cases hdrain : s.hop = .drain
  · obtain ⟨hopen, hlive, _, hrevoked⟩ := h.draining hdrain
    have htags : s.tags = Vector.replicate 16 .empty := by
      ext k hk
      have hk' := mt (tagLoaded_of_lt s hk).2 (by simp [hrevoked k hk])
      cases ht : s.tags[k] <;> simp_all
    have hended := running_scopeEnded (busy := false) h hopen (by simp [hdrain]) htags hlive rfl
    have hcommit := running_commitContext hended hv hok hnear nofun
    rw [progress_of_drain_idle (by simpa using hdrain) (commitContext_rastBusy s)]
    rw [commitContext_eq] at hcommit ⊢
    exact hcommit
  · have hcommit := running_commitContext h hv hok hnear hdrain
    rwa [progress_of_running hcommit]

end

section

variable {s : State} (h : Inv s)

include h

theorem inv_newCommand : Inv (newCommand s) := by
  unfold newCommand
  refine inv_busStable.issueCommand h _ fun hl => inv_update h rfl rfl fun hf => ?_
  have hinit : s.init = false := by simpa using (Bool.and_eq_true_iff.1 hl).1
  exact running_new (h.running hf) hinit

theorem inv_cfgTimingCommand : Inv (cfgTimingCommand s) := by
  unfold cfgTimingCommand
  refine inv_busStable.issueCommand h _ fun hl => ?_
  obtain ⟨hinit, hidle, _⟩ := hostLegal_iff.1 hl
  split
  case isTrue hvalid =>
    exact inv_update h rfl rfl fun hf => running_startSync (h.running hf) hinit (by simpa using hidle) hvalid
  case isFalse => exact inv_update h rfl rfl fun hf => running_refuse (h.running hf) 1

theorem inv_stopSyncCommand : Inv (stopSyncCommand s) := by
  unfold stopSyncCommand
  refine inv_busStable.issueCommand h _ fun hl => inv_update h rfl rfl fun hf => ?_
  obtain ⟨_, hsync, hhop⟩ := hostLegal_iff.1 hl
  exact running_stopSync (h.running hf) (by simpa using hsync) hhop

theorem inv_rastOpenCommand : Inv (rastOpenCommand s) := by
  unfold rastOpenCommand
  refine inv_busStable.issueCommand h _ fun hl => inv_update h rfl rfl fun hf => ?_
  obtain ⟨hinit, hsync, hhop⟩ := hostLegal_iff.1 hl
  exact running_rastOpen (h.running hf) hinit (by simpa using hsync) hhop

theorem inv_bandsOpenCommand (n : BitVec 8) : Inv (bandsOpenCommand n s) := by
  unfold bandsOpenCommand
  refine inv_busStable.issueCommand h _ fun hl => ?_
  obtain ⟨hinit, hsync, hhop⟩ := hostLegal_iff.1 (Bool.and_eq_true_iff.1 hl).2
  split
  case isTrue hwf =>
    exact inv_update h rfl rfl fun hf => running_bandsOpen (h.running hf) hinit (by simpa using hsync) hhop hwf
  case isFalse => exact inv_update h rfl rfl fun hf => running_refuse (h.running hf) 2

/-- The three commands that queue a wait (R275, R236, R237). -/
theorem inv_issueWait (w : Word) (next : WaitThen) :
    Inv (issueCommand w (hostLegal [.syncGen, .rasterLoaded] s)
      (fun s => { s with hop := .waitVbl s.vblCount next }) s) := by
  refine inv_busStable.issueCommand h _ fun hl => inv_update h rfl rfl fun hf => ?_
  obtain ⟨_, hstarted, hhop⟩ := hostLegal_iff.1 hl
  exact running_wait (h.running hf) hhop (fun hidle => by simp [hidle] at hstarted) next

/-- A command whose legal effect keeps the invariant keeps it whatever the state finds. -/
theorem inv_performCommand_of_legal {i : Instr} {w : Word} (hw : encodeCmd i = some w)
    (hlegal : s.faulted = false → legalHere i s → Inv (performCommand i s)) : Inv (performCommand i s) := by
  by_cases hl : legalHere i s
  · cases hf : s.faulted with
    | true => rwa [performCommand_faulted hw hf]
    | false => exact hlegal hf hl
  · exact inv_busStable.performCommand_of_not_legal h hw hl

theorem inv_rastClose_legal (hf : s.faulted = false) (hl : legalHere .rastClose s) :
    Inv (performCommand .rastClose s) := by
  obtain ⟨hends, hdrains⟩ := rastCloseRevokesAndDrains s hf hl
  obtain ⟨_, hopen, hhop⟩ := hl
  change Inv (rastCloseCommand s)
  cases hb : s.rastBusy with
  | false =>
    rw [Host.Outcome.next.inj (hends hb)]
    exact inv_update h rfl rfl fun _ => running_scopeEnded (h.running hf) hopen (by simp [hhop]) rfl rfl hb
  | true =>
    rw [Host.Outcome.next.inj (hdrains hb)]
    exact inv_update h rfl rfl fun _ => running_drain (h.running hf) hopen hhop hb

theorem inv_rastDone_legal (hf : s.faulted = false) (hb : s.rastBusy = true) :
    Inv (performCommand .rastDone s) := by
  change Inv (rastDoneCommand s)
  cases hok : badContext s with
  | true => rw [rastDoneCommand_badContext hf hb hok]; exact inv_busStable.raises _ _ _ h
  | false =>
    cases hnear : divOutOfRange s with
    | true => rw [rastDoneCommand_divOutOfRange hf hb hok hnear]; exact inv_busStable.raises _ _ _ h
    | false =>
      rw [rastDoneCommand_commits hf hb hok hnear]
      exact inv_update h (by simp) (by simp) fun _ => running_rastDone (h.running hf) hb hok hnear

theorem inv_rastFailCommand : Inv (rastFailCommand s) := by
  unfold rastFailCommand
  exact inv_busStable.issueCommand h _ fun _ => inv_busStable.raises _ _ _ h

/-- Every command keeps the invariant. -/
theorem inv_performCommand (i : Instr) : Inv (performCommand i s) := by
  cases i with
  | new => exact inv_newCommand h
  | cfgTiming => exact inv_cfgTimingCommand h
  | stopSync => exact inv_stopSyncCommand h
  | rastOpen => exact inv_rastOpenCommand h
  | bandsOpen n => exact inv_bandsOpenCommand h n
  | rastClose => exact inv_performCommand_of_legal h rfl (inv_rastClose_legal h)
  | syncVblank | videoOn | videoOff => exact inv_issueWait h _ _
  | rastDone => exact inv_performCommand_of_legal h rfl (inv_rastDone_legal h)
  | rastFail => exact inv_rastFailCommand h
  | _ => exact h

/-- A register that may be written is no part of a published list, and R57 reads no other (R358). -/
theorem inv_regWrite {r : Reg} (v : Word) (hw : regWritable r s = true) : Inv (regWrite r v s) := by
  refine inv_update h (by simp) (by simp) fun hf => ?_
  have hrun : Running s := h.running (by simpa using hf)
  cases r with
  | bandRange i | bandSlot i =>
    have noScope {p : Prop} (hopen : s.dstate = .rasterLoaded) : p := by simp [regWritable, hopen] at hw
    exact { hrun with
      liveScope := fun hl => noScope (scope_of_live hrun hl)
      bandList := fun hopen => noScope hopen
      published := fun hopen => noScope hopen
      bandPointer := fun hl => noScope (scope_of_live hrun hl) }
  | _ => exact { hrun with }

/-- Every bus operation keeps the invariant. -/
theorem inv_writeStep (o : BitVec 13) (w : Width) (v : Word) : Inv (writeStep o w v s) :=
  inv_busStable.writeStep h o w v (inv_performCommand h) fun _ => inv_regWrite h v

end

/-! ### The count of a `TICK` -/

/-- With `hcount` inside the period, the count of a `TICK` does not wrap at 16 bits (R157 sub-step 6). -/
theorem countTick_hcount_toNat {s : State} (hpos : s.hcount.toNat < s.timing.period)
    (hperiod : s.timing.period ≤ 65535) : (countTick s).hcount.toNat =
      if s.hcount.toNat + 1 = s.timing.period then 0 else s.hcount.toNat + 1 := by
  rw [countTick_hcount]
  split
  · rfl
  · rw [BitVec.toNat_add_of_lt (by simp; omega)]; rfl

/-- While the timers run the events are not masked (I2). -/
theorem evtMask_of_timRun {s : State} (h : Running s) (hr : s.timRun = true) : s.evtMask = false := by
  obtain ⟨_, hmask, _⟩ := h.started (started_of_timRun h hr)
  exact hmask

/-- Counting keeps R57 where no match is passed by: a rasterization is not at `M_SAV`, and a transfer is neither at
`M_EAV` nor at its next beat. -/
theorem running_countTick {s : State} (h : Running s) (hr : s.timRun = true)
    (hbusy : s.rastBusy = true → s.hcount.toNat ≠ s.timing.mSav)
    (hmoving : s.dmaActive = true → s.hcount.toNat ≠ s.timing.mEav ∧ s.hcount.toNat ≠ s.dmaNext) :
    Running (countTick s) := by
  obtain ⟨hpos, hline⟩ := h.position hr
  obtain ⟨_, _, _, hlate, hperiod, _⟩ := Timing.valid_order (valid_of_timRun h hr)
  have hcount := countTick_hcount_toNat hpos hperiod
  exact { h with
    position := fun _ => by
      refine ⟨?_, hline⟩
      rw [hcount, countTick_timing]
      split <;> omega
    busyWindow := fun hb => by
      have hwindow := h.busyWindow hb
      have hnot := hbusy hb
      rw [hcount, countTick_timing]
      split <;> omega
    beatWindow := fun hd => by
      obtain ⟨hafter, hbefore, hnext⟩ := h.beatWindow hd
      obtain ⟨hnotEav, hnotBeat⟩ := hmoving hd
      rw [hcount, countTick_timing, countTick_dmaNext]
      split <;> omega }

/-! ### The events of a `TICK`, with its count -/

/-- Arming reads and writes nothing that the count does. -/
theorem armDma_countTick (s : State) : armDma (countTick s) = countTick (armDma s) := by
  simp only [armDma, apply_ite countTick]
  rfl

section

variable {s : State} (h : Running s) (hr : s.timRun = true)

include h hr

/-- No event is due (R157). -/
theorem running_countTick_of_none (hSav : savDue s = false) (hEav : eavDue s = false) (hBeat : beatDue s = false) :
    Running (countTick s) := by
  have hmask := evtMask_of_timRun h hr
  refine running_countTick h hr (fun hb heq => ?_) fun hd => ⟨fun heq => ?_, fun heq => ?_⟩
  · exact (savDue_eq_false_iff s).1 hSav ⟨hmask, heq, (h.lineNumber hb).1⟩
  · exact (eavDue_eq_false_iff s).1 hEav ⟨hmask, heq⟩
  · exact (beatDue_eq_false_iff s).1 hBeat ⟨hd, heq⟩

/-- A beat moves one byte of the transfer on (R187). -/
theorem running_dmaBeat (hp : s.params.wf = true) (hEav : eavDue s = false) (hBeat : beatDue s = true) :
    Running (countTick (dmaBeat s)) := by
  obtain ⟨hd, hnow⟩ := (beatDue_iff s).1 hBeat
  obtain ⟨hafter, hbefore, _⟩ := h.beatWindow hd
  obtain ⟨hstart, hstop, hdue⟩ := h.beatPlace hd
  obtain ⟨hv, hfit, hrem⟩ := h.transfer hd
  obtain ⟨hdivMin, hdivMax⟩ := h.divBounds hd
  have hovr : 1 ≤ s.params.ovrMin := by simp [Params.wf] at hp; omega
  have hptr : (s.dmaPtr + 1).toNat = s.dmaPtr.toNat + 1 := by
    have hle : s.dmaPtr.toNat + s.dmaRem.toNat ≤ 65535 := by rw [hstop]; omega
    bv_omega
  have hless : (s.dmaRem - 1).toNat = s.dmaRem.toNat - 1 := by bv_omega
  have hleft : (dmaBeat s).dmaActive = true → 1 ≤ (s.dmaRem - 1).toNat := by
    intro hd'
    rw [dmaBeat_dmaActive] at hd'
    split at hd'
    case isTrue => cases hd'
    case isFalse hne => exact Nat.pos_of_ne_zero fun h0 => hne (BitVec.eq_of_toNat_eq h0)
  have hstarted := started_of_timRun h hr
  have hmoved : Running (dmaBeat s) := { h with
    idle := fun hidle => absurd hidle hstarted
    transfer := fun hd' => ⟨hv, by simp only [dmaBeat_dmaPtr, dmaBeat_dmaRem, dmaBeat_params]; omega, hleft hd'⟩
    blanking := fun hdark => nomatch hv.symm.trans hdark
    divBounds := fun _ => ⟨hdivMin, hdivMax⟩
    beatWindow := fun _ => ⟨hafter, hbefore, by rw [dmaBeat_dmaNext, dmaBeat_hcount]; omega⟩
    beatPlace := fun hd' => by
      have hpos := hleft hd'
      refine ⟨Nat.le_trans hstart (by rw [dmaBeat_dmaPtr]; omega), Eq.trans ?_ hstop, ?_⟩
      · rw [dmaBeat_dmaPtr, dmaBeat_dmaRem]; omega
      · have hshape : shapeOf (dmaBeat s) (!(dmaBeat s).work) = shapeOf s (!s.work) := rfl
        rw [hshape, dmaBeat_dmaPtr, dmaBeat_dmaNext, dmaBeat_dmaDiv, dmaBeat_timing, hptr, hdue,
          Nat.sub_add_comm hstart, Nat.succ_mul]
        omega }
  refine running_countTick hmoved hr (fun hb heq => ?_) fun hd' => ⟨fun heq => ?_, ?_⟩
  · rw [dmaBeat_hcount, dmaBeat_timing] at heq; omega
  · exact (eavDue_eq_false_iff s).1 hEav ⟨evtMask_of_timRun h hr, heq⟩
  · rw [dmaBeat_hcount, dmaBeat_dmaNext]; omega

omit hr in
/-- The swap hands the committed shape to the scanout side, while no transfer runs (R182 step 4). -/
theorem running_swapBuffers (hd : s.dmaActive = false) : Running (swapBuffers s) := by
  rw [swapBuffers_eq]
  exact { h with
    beatPlace := fun hd' => nomatch hd.symm.trans hd'
    freshShape := nofun }

omit hr in
/-- A transfer may start between the matches of `SAV` and `EAV`, before its first beat is due (R182 step 5). -/
theorem running_armDma (hv : s.timing.visible s.vline = true)
    (hd : s.dstate ≠ .idle) (hafter : s.timing.mSav < s.hcount.toNat) (hbefore : s.hcount.toNat ≤ s.timing.mPix0)
    (hpix : s.timing.mPix0 ≤ s.timing.mEav) : Running (armDma s) := by
  rcases armDma_cases s with ⟨_, he⟩ | ⟨hvalid, hlt, he⟩ <;> rw [he]
  · exact h
  · obtain ⟨hle, hfit⟩ := h.shapes _ hvalid
    have hlen : ((shapeOf s (!s.work)).stop - (shapeOf s (!s.work)).start).toNat =
        (shapeOf s (!s.work)).stop.toNat - (shapeOf s (!s.work)).start.toNat := BitVec.toNat_sub_of_le hle
    exact { h with
      idle := fun hidle => absurd hidle hd
      transfer := fun _ => ⟨hv, by simp only [hlen]; omega, by simp only [hlen]; omega⟩
      blanking := fun hdark => nomatch hv.symm.trans hdark
      divBounds := fun _ => h.shiftBounds _ hvalid
      beatWindow := fun _ => ⟨hafter, Nat.le_trans hbefore hpix, hbefore⟩
      beatPlace := fun _ => by
        refine ⟨Nat.le_refl _, by simp only [hlen]; exact Nat.add_sub_cancel' hle, ?_⟩
        change s.timing.mPix0 = s.timing.mPix0 +
          ((shapeOf s (!s.work)).start.toNat - (shapeOf s (!s.work)).start.toNat) * s.shiftDiv.toNat
        rw [Nat.sub_self, Nat.zero_mul, Nat.add_zero] }

/-- `SAV` is due and raises no fault: the buffers swap, and the transfer of the committed shape starts (R182). -/
theorem running_savEvent (hSav : savDue s = true) (hok : (savEvent s).faulted = false) :
    Running (countTick (savEvent s)) := by
  obtain ⟨_, hnow, hv⟩ := (savDue_iff s).1 hSav
  obtain ⟨_, hpix, hpixEav, hlate, hperiod, _⟩ := Timing.valid_order (valid_of_timRun h hr)
  obtain ⟨hpos, _⟩ := h.position hr
  have hstarted := started_of_timRun h hr
  rcases savEvent_cases s with ⟨_, he⟩ | ⟨_, _, he⟩ | ⟨_, _, _, he⟩ | ⟨_, hb, hd, he⟩ <;> rw [he] at hok ⊢
  case inr.inr.inr =>
    have hcounted : Running (countTick (swapBuffers s)) :=
      running_countTick (running_swapBuffers h hd) (by simpa using hr) (by simp [hb]) (by simp [hd])
    have hcount : (countTick (swapBuffers s)).hcount.toNat = s.timing.mSav + 1 := by
      rw [countTick_hcount_toNat] <;> simp only [swapBuffers_hcount, swapBuffers_timing]
      · rw [if_neg (by omega), hnow]
      · exact hpos
      · exact hperiod
    have hvisible : (countTick (swapBuffers s)).timing.visible (countTick (swapBuffers s)).vline = true := by
      simpa using hv
    rw [← armDma_countTick]
    refine running_armDma hcounted hvisible (by simpa using hstarted) ?_ ?_ ?_ <;>
      simp only [hcount, countTick_timing, swapBuffers_timing] <;> omega
  all_goals cases hok

/-! #### `EAV` -/

/-- At `M_EAV` no rasterization runs (R355). -/
theorem idle_at_eav (hnow : s.hcount.toNat = s.timing.mEav) : s.rastBusy = false := by
  obtain ⟨_, hpix, hpixEav, _⟩ := Timing.valid_order (valid_of_timRun h hr)
  refine Bool.eq_false_iff.2 fun hb => ?_
  rcases h.busyWindow hb with hearly | hlate <;> omega

/-- The tick of `M_EAV` opens the time of the rasterizer (R355). -/
theorem countTick_after_eav (hnow : s.hcount.toNat = s.timing.mEav) :
    (countTick s).hcount.toNat ≤ s.timing.mSav ∨ s.timing.mEav < (countTick s).hcount.toNat := by
  obtain ⟨_, _, _, hlate, hperiod, _⟩ := Timing.valid_order (valid_of_timRun h hr)
  rw [countTick_hcount_toNat (hnow ▸ hlate) hperiod]
  split <;> omega

/-- The next line is one of the frame (R183 step 1). -/
theorem nextLine_lt_vTotal : (nextLine s).toNat < s.timing.vTotal.toNat := by
  obtain ⟨_, _, _, _, _, hvb, hframe⟩ := Timing.valid_order (valid_of_timRun h hr)
  obtain ⟨_, hline⟩ := h.position hr
  by_cases hne : nextLine s = 0
  · rw [hne]; exact Nat.lt_of_lt_of_le hvb (by omega)
  · obtain ⟨hin, hnext⟩ := nextLine_toNat hne
    omega

/-- The line ends and line `nv` begins, with the live flag, the band pointer and the repeat counter that R184 and R185
give it. -/
theorem running_newLine {nv : Half} {live : Bool} {ptr : BitVec 8} {rep : Half} (hb : s.rastBusy = false)
    (hnv : nv.toNat < s.timing.vTotal.toNat) (hmutex : s.mtxOwner = .thread → s.timing.visible nv = false)
    (hdark : s.timing.visible nv = false → ptr = 0 ∧ rep = 0)
    (hscope : live = true → s.dstate = .rasterLoaded ∧ 1 ≤ s.bandN.toNat ∧
      ∀ i, i < s.bandN.toNat → tagLoaded s (bandSlotAt s i).toNat = true)
    (hband : live = true → s.timing.visible nv = true →
      ptr.toNat < s.bandN.toNat ∧ Covers s ptr.toNat (s.timing.rline nv)) :
    Running { endLine nv s with live := live, bandPtr := ptr, repeatCtr := rep } := by
  have hstarted := started_of_timRun h hr
  have noDrain := hop_ne_drain h hb
  exact { h with
    idle := fun hidle => absurd hidle hstarted
    position := fun hrun => ⟨(h.position hrun).1, hnv⟩
    transfer := nofun
    blanking := fun _ => ⟨rfl, rfl⟩
    mutex := fun hm => ⟨hmutex hm, (h.mutex hm).2⟩
    liveScope := hscope
    lineNumber := fun hbusy => nomatch hb.symm.trans hbusy
    draining := fun hdrain => absurd hdrain noDrain
    vblankPointers := fun _ => hdark
    bandPointer := hband
    divBounds := nofun
    beatWindow := nofun
    beatPlace := nofun }

omit hr in
/-- On a visible line with no live rasterizer nothing is shown (R185 step 2). -/
theorem running_clearShapes (hv : s.timing.visible s.vline = true) (hd : s.dmaActive = false) :
    Running (clearShapes s) :=
  { h with
    shapes := fun b hvalid => by cases b <;> cases hvalid
    vblankPointers := fun _ hdark => nomatch hv.symm.trans hdark
    shiftBounds := fun b hvalid => by cases b <;> cases hvalid
    beatPlace := fun hmoving => nomatch hd.symm.trans hmoving
    freshShape := nofun }

omit hr in
/-- A dispatch inside a scope, on the visible line it names and within the rasterizer's time (R186, R355). -/
theorem running_dispatch {r : Half} {k : BitVec 8} {fn : Word} (hopen : s.dstate = .rasterLoaded)
    (hv : s.timing.visible s.vline = true) (hline : r.toNat = s.timing.rline s.vline)
    (hdrain : s.hop ≠ .drain)
    (hwindow : s.hcount.toNat ≤ s.timing.mSav ∨ s.timing.mEav < s.hcount.toNat) :
    Running { s with
      rastBusy := true, rastLine := r, rastSlot := k, rastFn := fn
      ctxRange := 0x00000000#32, ctxMode := 0x00000001#32 } :=
  { h with
    idle := fun hidle => nomatch hopen.symm.trans hidle
    lineNumber := fun _ => ⟨hv, hline⟩
    busyScope := fun _ => hopen
    busyWindow := fun _ => hwindow
    draining := fun hd => absurd hd hdrain }

end

/-! #### The frame boundary -/

/-- `s` with the vblank counter moved to `count` by a frame boundary (R184). -/
def countFrame (count : Word) (s : State) : State := { s with vblCount := count, vblFlag := true }

/-- `t` is `u`, or `u` in vblank with the vblank counter moved on. -/
def CountsFrame (u t : State) : Prop :=
  t = u ∨ (inVblank u ∧ ∃ count, u.vblCount.toNat < count.toNat ∧ t = countFrame count u)

/-- An `EAV` that moves to a blanking line (R183, R184). -/
theorem running_eavEvent_blanking {s : State} (h : Running s) (hr : s.timRun = true)
    (hnow : s.hcount.toNat = s.timing.mEav) (hv : s.timing.visible (nextLine s) = false)
    (hok : (eavEvent s).faulted = false) :
    ∃ u, Running u ∧ CountsFrame u (countTick (eavEvent s)) := by
  have hb := idle_at_eav h hr hnow
  have hnv := nextLine_lt_vTotal h hr
  have begins {ptr : BitVec 8} {rep : Half} (hzero : ptr = 0 ∧ rep = 0) :
      Running (countTick { endLine (nextLine s) s with bandPtr := ptr, repeatCtr := rep }) :=
    running_countTick (running_newLine h hr hb hnv (fun _ => hv) (fun _ => hzero) h.liveScope
      fun _ hv' => nomatch hv.symm.trans hv') hr (fun hb' => nomatch hb.symm.trans hb') nofun
  rw [eavEvent_blanking hv] at hok ⊢
  rcases frameBoundary_cases (endLine (nextLine s) s) with ⟨hne, he⟩ | ⟨_, _, he⟩ | ⟨_, hmax, he⟩ <;> rw [he] at hok ⊢
  · have hdark : inVblank s := by
      obtain ⟨_, hnext⟩ := nextLine_toNat hne
      simp only [inVblank, Timing.visible, decide_eq_false_iff_not] at hv ⊢
      omega
    exact ⟨_, begins (h.vblankPointers hr hdark), .inl rfl⟩
  · cases hok
  · exact ⟨_, begins ⟨rfl, rfl⟩, .inr ⟨hv, _, lt_vblCount_crossFrame (s := s) hmax (Nat.le_refl _), rfl⟩⟩

/-- An `EAV` that moves to a visible line (R183, R185). -/
theorem running_eavEvent_visible {s : State} (h : Running s) (hf : s.faulted = false) (hr : s.timRun = true)
    (hnow : s.hcount.toNat = s.timing.mEav) (hv : s.timing.visible (nextLine s) = true)
    (hok : (eavEvent s).faulted = false) : Running (countTick (eavEvent s)) := by
  have hvalid := valid_of_timRun h hr
  have hb := idle_at_eav h hr hnow
  have hnv := nextLine_lt_vTotal h hr
  have hne : nextLine s ≠ 0 := fun h0 => by
    rw [h0, Timing.visible_zero_of_valid hvalid] at hv
    cases hv
  have hfree : s.mtxOwner = .free := by
    cases hm : s.mtxOwner with
    | free => rfl
    | thread => rw [eavEvent_mutexHeld hm hv] at hok; cases hok
  have counts {u : State} (hu : Running u) (hrun : u.timRun = true) (hbusy : u.rastBusy = false)
      (hidle : u.dmaActive = false) : Running (countTick u) :=
    running_countTick hu hrun (by simp [hbusy]) (by simp [hidle])
  have begins {live : Bool} {ptr : BitVec 8} {rep : Half} :=
    running_newLine (live := live) (ptr := ptr) (rep := rep) h hr hb hnv (fun hm => nomatch hfree.symm.trans hm)
      (fun hdark => nomatch hv.symm.trans hdark)
  rw [eavEvent_visible hf hfree hne]
  by_cases hl : liveAt (s.timing.rline (nextLine s)) s
  · have noDrain := hop_ne_drain h hb
    have hopen : s.dstate = .rasterLoaded := hl.elim (scope_of_live h) fun ⟨_, hd, _⟩ => hd
    obtain ⟨ptr, rep, hadv⟩ := exists_advances (s.timing.rline (nextLine s)) s
    have hcovers := covers_of_advances h hr hne hv hl hadv
    have hwindow := countTick_after_eav h hr hnow
    have hline : Running (countTick { endLine (nextLine s) s with live := true, bandPtr := ptr, repeatCtr := rep }) :=
      counts (begins (fun _ => ⟨hopen, h.published hopen noDrain⟩) fun _ _ => hcovers) hr hb rfl
    by_cases hrep : rep = 0
    · subst hrep
      rw [chooseRaster_dispatches (s := endLine (nextLine s) s) hv hl hadv hb]
      exact running_dispatch hline hopen hv (toNat_ofNat_rline s.timing (nextLine s)) noDrain hwindow
    · rw [chooseRaster_repeats (s := endLine (nextLine s) s) hv hl hadv hrep]
      exact hline
  · rw [chooseRaster_not_liveAt (s := endLine (nextLine s) s) hv hl]
    have hlive : s.live = false := Bool.eq_false_iff.2 fun hlive => hl (.inl hlive)
    have hline := begins (live := s.live) (ptr := s.bandPtr) (rep := s.repeatCtr) (by simp [hlive]) (by simp [hlive])
    exact counts (running_clearShapes hline hv rfl) hr hb rfl

/-! ### The whole `TICK` -/

/-- The events of a `TICK` that raises no fault, with its count: at most one is due, but for a beat that `EAV`
cancels (R157). -/
theorem running_tickEvents {s : State} (h : Inv s) (hf : s.faulted = false) (hr : s.timRun = true)
    (hok : (tickEvents s).faulted = false) : ∃ u, Running u ∧ CountsFrame u (countTick (tickEvents s)) := by
  have hrun := h.running hf
  have hvalid := valid_of_timRun hrun hr
  have uncounted {t : State} (ht : Running t) : ∃ u, Running u ∧ CountsFrame u t := ⟨t, ht, .inl rfl⟩
  cases hSav : savDue s with
  | true =>
    rw [tickEvents_sav hvalid hSav] at hok ⊢
    exact uncounted (running_savEvent hrun hr hSav hok)
  | false =>
    cases hEav : eavDue s with
    | true =>
      obtain ⟨_, hnow⟩ := (eavDue_iff s).1 hEav
      rw [tickEvents_eav hf hvalid hEav] at hok ⊢
      cases hv : s.timing.visible (nextLine s) with
      | false => exact running_eavEvent_blanking hrun hr hnow hv hok
      | true => exact uncounted (running_eavEvent_visible hrun hf hr hnow hv hok)
    | false =>
      cases hBeat : beatDue s with
      | true =>
        rw [tickEvents_beat hf hSav hEav hBeat]
        exact uncounted (running_dmaBeat hrun hr h.params hEav hBeat)
      | false =>
        rw [tickEvents_none hSav hEav hBeat]
        exact uncounted (running_countTick_of_none hrun hr hSav hEav hBeat)

/-- Neither the gate countdown nor `progress()` reads the count of the line. -/
theorem gateCountdown_countTick (s : State) : gateCountdown (countTick s) = countTick (gateCountdown s) := by
  have hop : (countTick s).hop = s.hop := rfl
  unfold gateCountdown
  rw [hop]
  cases s.hop with
  | none | waitVbl | drain => rfl
  | gateHold rem target => simp only [apply_ite countTick]; rfl

theorem progress_countTick (s : State) : progress (countTick s) = countTick (progress s) := by
  have hop : (countTick s).hop = s.hop := rfl
  unfold progress
  rw [hop]
  cases s.hop with
  | none | gateHold => rfl
  | drain => simp only [apply_ite countTick]; rfl
  | waitVbl sample next => cases next <;> simp only [apply_ite countTick] <;> rfl

section

variable {u t : State} (h : Running u)

include h

/-- A gate hold counts down, and its end frees the mutex (R238). -/
theorem running_gateCountdown : Running (gateCountdown u) := by
  rcases gateCountdown_cases u with ⟨_, he⟩ | ⟨rem, target, hhop, _, he⟩ | ⟨rem, target, hhop, hmore, he⟩ <;> rw [he]
  · exact h
  · have hstarted := started_of_hop h (by simp [hhop])
    exact { h with
      idle := fun hidle => absurd hidle hstarted
      mutex := nofun
      waitSample := nofun
      draining := nofun
      published := fun hopen _ => h.published hopen (by simp [hhop])
      gateMutex := nofun }
  · have hstarted := started_of_hop h (by simp [hhop])
    obtain ⟨hm, hpos, hle⟩ := h.gateMutex rem target hhop
    exact { h with
      idle := fun hidle => absurd hidle hstarted
      mutex := fun hm => ⟨(h.mutex hm).1, _, _, rfl⟩
      waitSample := nofun
      draining := nofun
      published := fun hopen _ => h.published hopen (by simp [hhop])
      gateMutex := fun rem' target' heq => by cases heq; exact ⟨hm, by omega, Nat.le_trans (Nat.sub_le _ _) hle⟩ }

/-- A wait ends in vblank, with the host operation done (R276). -/
theorem running_waitDone {sample : Word} {next : WaitThen} {count : Word} (hhop : u.hop = .waitVbl sample next) :
    Running { u with vblCount := count, vblFlag := false, hop := .none, result := 0 } := by
  have hfree := mtxOwner_free h (by simp [hhop])
  have hstarted := started_of_hop h (by simp [hhop])
  exact { h with
    idle := fun hidle => absurd hidle hstarted
    mutex := fun hm => nomatch hfree.symm.trans hm
    waitSample := nofun
    draining := nofun
    published := fun hopen _ => h.published hopen (by simp [hhop])
    gateMutex := nofun }

/-- A wait ends in vblank, and the gate operation that waited takes the mutex (R238 phase 2). -/
theorem running_gateTaken {sample : Word} {next : WaitThen} {count : Word} (target : Bool)
    (hhop : u.hop = .waitVbl sample next) (hdark : inVblank u) (hgate : 1 ≤ u.params.gateHold) :
    Running { u with
      vblCount := count, vblFlag := false, mtxOwner := .thread, hop := .gateHold u.params.gateHold target } := by
  have hstarted := started_of_hop h (by simp [hhop])
  exact { h with
    idle := fun hidle => absurd hidle hstarted
    mutex := fun _ => ⟨hdark, _, _, rfl⟩
    waitSample := nofun
    draining := nofun
    published := fun hopen _ => h.published hopen (by simp [hhop])
    gateMutex := fun rem target' heq => by cases heq; exact ⟨rfl, hgate, Nat.le_refl _⟩ }

/-- Where no wait is in progress the vblank counter is free to move (R276). -/
theorem running_countFrame {count : Word} (hhop : ∀ sample next, u.hop ≠ .waitVbl sample next) :
    Running (countFrame count u) :=
  { h with waitSample := fun sample next heq => absurd heq (hhop sample next) }

/-- The wait that saw the frame boundary ends in the same `TICK`; nothing else completes (R276). -/
theorem running_progress (hp : t.params.wf = true) (hc : CountsFrame u t) : Running (progress t) := by
  have hgate : 1 ≤ t.params.gateHold := by simp [Params.wf] at hp; omega
  rcases hc with rfl | ⟨hdark, count, hlt, rfl⟩
  · rwa [progress_of_running h]
  · by_cases hwait : ∃ sample next, u.hop = .waitVbl sample next
    · obtain ⟨sample, next, hhop⟩ := hwait
      obtain rfl := h.waitSample sample next hhop
      cases next with
      | done =>
        rw [progress_of_waitVbl_done (s := countFrame count u) hhop hlt]
        exact running_waitDone h hhop
      | gateOn =>
        rw [progress_of_waitVbl_gateOn (s := countFrame count u) hhop hlt]
        exact running_gateTaken h true hhop hdark hgate
      | gateOff =>
        rw [progress_of_waitVbl_gateOff (s := countFrame count u) hhop hlt]
        exact running_gateTaken h false hhop hdark hgate
    · have hcounted : Running (countFrame count u) :=
        running_countFrame h fun sample next heq => hwait ⟨sample, next, heq⟩
      rwa [progress_of_running hcounted]

end

/-- The gate countdown neither reads nor writes the vblank counter. -/
theorem gateCountdown_countFrame (count : Word) (s : State) :
    gateCountdown (countFrame count s) = countFrame count (gateCountdown s) := by
  have hop : (countFrame count s).hop = s.hop := rfl
  unfold gateCountdown
  rw [hop]
  cases s.hop with
  | none | waitVbl | drain => rfl
  | gateHold rem target => simp only [apply_ite (countFrame count)]; rfl

theorem CountsFrame.gateCountdown {u t : State} (h : CountsFrame u t) :
    CountsFrame (gateCountdown u) (gateCountdown t) := by
  rcases h with rfl | ⟨hdark, count, hlt, rfl⟩
  · exact .inl rfl
  · exact .inr ⟨by simpa [inVblank] using hdark, count, by simpa using hlt, gateCountdown_countFrame count u⟩

/-- Every `TICK` keeps the invariant. -/
theorem inv_tickStep {s : State} (h : Inv s) : Inv (tickStep s) := by
  refine inv_update h (tickStep_ignoresUnread.params_eq s) (tickStep_keepsBuffers s).1 fun hok => ?_
  rcases tickStep_cases s with he | ⟨hu, he⟩ | ⟨hf, hr, hu, he⟩ <;> rw [he] at hok ⊢
  · exact h.running hok
  · exact nomatch hu.symm.trans hok
  · have hp : (tickEvents s).params.wf = true := by rw [tickEvents_ignoresUnread.params_eq s]; exact h.params
    obtain ⟨u, hrun, hc⟩ := running_tickEvents h hf hr hu
    rw [← progress_countTick]
    split
    · rw [← gateCountdown_countTick]
      exact running_progress (running_gateCountdown hrun) (by simpa using hp) hc.gateCountdown
    · exact running_progress hrun hp hc

/-! ### Every step -/

/-- What a step other than the reset performs: a `TICK`, a read, a plain write or a command (R8, R131). -/
theorem decodeInput_cases {x : Input} {i : Instr} (h : decodeInput x = some i) :
    i = .tick ∨ (∃ o w, i = .rd o w) ∨ (∃ o w v, i = .wr o w v) ∨ ∃ w, encodeCmd i = some w := by
  cases x with
  | tick => cases h; exact .inl rfl
  | reset => cases h
  | read o w => cases h; exact .inr (.inl ⟨o, w, rfl⟩)
  | write o w v =>
    simp only [decodeInput] at h
    split at h
    · split at h
      case h_1 j hj => cases h; exact .inr (.inr (.inr ⟨_, encodeCmd_of_decodeCmd hj⟩))
      case h_2 => cases h; exact .inr (.inr (.inl ⟨_, _, _, rfl⟩))
    · cases h; exact .inr (.inr (.inl ⟨_, _, _, rfl⟩))

/-- Settles O48: the invariant is kept by the reset, by every `TICK` and by every bus operation. -/
theorem everyStepKeepsTheInvariant : Obligations.EveryStepKeepsTheInvariant := by
  intro s t h hstep
  have htaken : Inv (takeInput s) := inv_update h rfl rfl fun hf => running_takeInput (h.running hf)
  rcases step_cases s with ⟨_, he⟩ | ⟨i, hi, he⟩ <;> rw [hstep] at he
  · cases he
    exact inv_resetStep htaken
  · rcases decodeInput_cases hi with rfl | ⟨o, w, rfl⟩ | ⟨o, w, v, rfl⟩ | ⟨w, hw⟩
    · cases he; exact inv_tickStep htaken
    · cases he; exact inv_busStable.readStep htaken o w
    · cases he; exact inv_writeStep htaken o w v
    · rw [exec_command hw] at he
      cases he
      exact inv_performCommand htaken i

end Sys2Proof.Machine
